-- ==== Sys2Proof/Word.lean ====
section
/-! DEFINITION. The byte and its bits (00_scope.md R15, R17). -/

namespace Sys2Proof

/-- A byte: 8 bits (R17). Every port transaction carries exactly one (R15). -/
abbrev Byte := BitVec 8

/-- `b[i]` of R17: bit i of byte b, bit 0 the least significant. -/
def bitOf (b : Byte) (i : Nat) : Bool := b.getLsbD i

end Sys2Proof
end

