-- ==== Sys2Proof/Config.lean ====
section
/-! DEFINITION. What is fixed for one machine (00_scope.md section 4, R11 to R14) and the free values of port
reads (20_memory.md R56). -/

namespace Sys2Proof

/-- The implementation parameters, "an argument" of the model (00_scope.md section 4). The defaults are the values
this hardware uses. State holds one `Params`, which no step changes (log entry 1). -/
structure Params where
  /-- POLL_BOUND (R11): the most status reads of one WAITW or WAITR. -/
  pollBound : Nat := 100000
  /-- ACK_BOUND (R12): `none` is NONE, the unbounded loop of this hardware. -/
  ackBound : Option Nat := none
  /-- DATA_PORT (R13). -/
  dataPort : Nat := 0x60
  /-- STATUS_CMD_PORT (R13), PRESUMED default 0x64 (the spec's general knowledge G1, log entry 13). -/
  statusCmdPort : Nat := 0x64
  /-- IRQ_LINE (R14). -/
  irqLine : Nat := 12
  /-- IRQ_DEST (R14). -/
  irqDest : Nat := 0
  deriving DecidableEq, Repr

/-- The parameters of this hardware: every default of R11 to R14. -/
def Params.hardware : Params := {}

/-- R11: "POLL_BOUND must be at least 1"; R12: ACK_BOUND is NONE or a number n ≥ 1. -/
def Params.legal (c : Params) : Bool :=
  decide (1 ≤ c.pollBound) &&
    match c.ackBound with
    | none => true
    | some n => decide (1 ≤ n)

/-- The byte a `STATUS_CMD` read returns where the environment script lists none: a free value (R56), no body. -/
opaque Config.freeStatus : Nat → Byte

/-- The byte a `DATA` read returns where the environment script lists none: a free value (R56), no body. -/
opaque Config.freeData : Nat → Byte

end Sys2Proof
end

