-- ==== Sys2Proof/Syntax.lean ====
section
/-! DEFINITION. The operations of PS2CORE: one constructor per row of spec/opcode_table.json (30_encoding.md R86). -/

namespace Sys2Proof

/-- The two ports, named by symbol (20_memory.md R51). -/
inductive Port where
  /-- `DATA`. -/
  | data
  /-- `STATUS_CMD`, spelled `CMD` when written and `STATUS` when read (00_scope.md R16). -/
  | statusCmd
  deriving DecidableEq, Repr

/-- The operand v of `OUT p, v` (42_init.md R142): an immediate byte, or the register `cfg`. -/
inductive OutVal where
  | imm (v : Byte)
  | cfg
  deriving DecidableEq, Repr

/-- One constructor per row of spec/opcode_table.json. -/
inductive Instr where
  /-- Request `INIT` (R140). -/
  | init
  /-- Request `IRQ` (R160). -/
  | irq
  /-- The reserved request code 11 (R73). -/
  | reservedRequest
  /-- Request code 00, or `req_valid` low: no request (R73). -/
  | nopRequest
  /-- `WAITW` (R101). -/
  | waitw
  /-- `WAITR` (R103). -/
  | waitr
  /-- The pseudo-operation `SEND c` (R88, R120). -/
  | send (c : Byte)
  /-- `ACKLOOP` (R122). -/
  | ackloop
  /-- `OUT p, v` (R142). -/
  | out (p : Port) (v : OutVal)
  /-- `IN DATA -> cfg` (R143). -/
  | inCfg
  /-- `CFG_OR mask` (R144). -/
  | cfgOr (mask : Byte)
  /-- `REGIRQ line, dest` (R150). -/
  | regirq (line dest : Nat)
  /-- `ISTAT` (R162). -/
  | istat
  /-- `IDATA` (R163). -/
  | idata
  /-- `DECODE` (R170). -/
  | decode
  /-- Controller command byte 0xA8 (R75). -/
  | ctrlEnableAux
  /-- Controller command byte 0x20 (R75). -/
  | ctrlReadConfig
  /-- Controller command byte 0x60 (R75). -/
  | ctrlWriteConfig
  /-- Controller command byte 0xD4, the gateway (R75). -/
  | ctrlWriteAux
  /-- Mouse command byte 0xF6 (R76). -/
  | auxSetDefaults
  /-- Mouse command byte 0xF4 (R76). -/
  | auxEnableReporting
  /-- The acknowledge byte 0xFA (R77). -/
  | auxAck
  /-- A status byte s with bit 1 clear, as `WAITW` tests it (R78, R101). -/
  | statusWriteReady (s : Byte)
  /-- A status byte s with bit 0 set, as `WAITR` tests it (R78, R103). -/
  | statusReadReady (s : Byte)
  /-- A status byte s with bit 0 set, as `ISTAT` tests it (R78, R162). -/
  | statusIrqData (s : Byte)
  /-- A configuration byte b with bit 1 set, as `CFG_OR` leaves it (R79, R144). -/
  | cfgIrq12En (b : Byte)
  /-- A packet byte 0 with bit 7 set (R80, R171). -/
  | pktYovf (b : Byte)
  /-- A packet byte 0 with bit 6 set (R80, R171). -/
  | pktXovf (b : Byte)
  /-- A packet byte 0 with no overflow bit and bit 0 set (R173). -/
  | pktLbtnPressed (b : Byte)
  /-- A packet byte 0 with no overflow bit and bit 0 clear (R172). -/
  | pktLbtnReleased (b : Byte)
  /-- A packet byte 0 with no overflow bit and bit 1 set (R175). -/
  | pktRbtnPressed (b : Byte)
  /-- A packet byte 0 with no overflow bit and bit 1 clear (R174). -/
  | pktRbtnReleased (b : Byte)
  /-- A packet byte 0 with no overflow bit, as the motion step takes it (R176). -/
  | pktMove (b : Byte)
  deriving DecidableEq, Repr

end Sys2Proof
end

