-- ==== Sys2Proof/WellFormed.lean ====
section
/-! DEFINITION. Which operand values the spec gives an operation (30_encoding.md R75 to R80, R85; 42_init.md R141). -/

namespace Sys2Proof

/-- The eight `OUT` operand pairs of `INIT_SEQ` (42_init.md R141): the block "issues no other command byte" (R75),
sends "exactly two mouse commands" (R76), and writes `cfg` at entry 10. -/
def outOperandsLegal : Port → OutVal → Bool
  | .statusCmd, .imm v => decide (v ∈ ([0xA8, 0x20, 0x60, 0xD4] : List Byte))
  | .statusCmd, .cfg => false
  | .data, .imm v => decide (v ∈ ([0xF6, 0xF4] : List Byte))
  | .data, .cfg => true

/-- An instruction whose operands are ones the spec gives it, under the parameters c. -/
def Instr.wellFormed (c : Params) : Instr → Bool
  | .init => true
  | .irq => true
  | .reservedRequest => true
  | .nopRequest => true
  | .waitw => true
  | .waitr => true
  | .send b => decide (b = 0xF6 ∨ b = 0xF4)
  | .ackloop => true
  | .out p v => outOperandsLegal p v
  | .inCfg => true
  | .cfgOr m => decide (m = 0x02)
  | .regirq line dest => decide (line = c.irqLine ∧ dest = c.irqDest)
  | .istat => true
  | .idata => true
  | .decode => true
  | .ctrlEnableAux => true
  | .ctrlReadConfig => true
  | .ctrlWriteConfig => true
  | .ctrlWriteAux => true
  | .auxSetDefaults => true
  | .auxEnableReporting => true
  | .auxAck => true
  | .statusWriteReady s => decide (s &&& 0x02 = 0x00)
  | .statusReadReady s => decide (s &&& 0x01 = 0x01)
  | .statusIrqData s => decide (s &&& 0x01 = 0x01)
  | .cfgIrq12En b => decide (b &&& 0x02 = 0x02)
  | .pktYovf b => decide (b &&& 0x80 = 0x80)
  | .pktXovf b => decide (b &&& 0x40 = 0x40)
  | .pktLbtnPressed b => decide (b &&& 0xC1 = 0x01)
  | .pktLbtnReleased b => decide (b &&& 0xC1 = 0x00)
  | .pktRbtnPressed b => decide (b &&& 0xC2 = 0x02)
  | .pktRbtnReleased b => decide (b &&& 0xC2 = 0x00)
  | .pktMove b => decide (b &&& 0xC0 = 0x00)

end Sys2Proof
end

