-- ==== Sys2Proof/Decode.lean ====
section
/-! DEFINITION. The encodings of 30_encoding.md: the decoder, total on any byte in any place a byte is decoded, and
the encoder. Micro-operations "have no external encoding" (R86). -/

namespace Sys2Proof

/-- The encoded formats of R70 that opcode rows have. -/
inductive Format where
  | req2 | ctrlCmd8 | auxCmd8 | auxResp8 | status8 | cfg8 | pktStatus8
  deriving DecidableEq, Repr

/-- Where the block decodes a byte: the format and, for a format whose bits several tests read, which test asks
(R78: WAITW, WAITR and ISTAT test `status8`; R170: the decode tests `pkt_status8` in steps). The bits alone do not
say which, log entry 11. -/
inductive Slot where
  /-- The request code, when idle (R72). -/
  | request
  /-- The byte of a `STATUS_CMD` write (R74). -/
  | ctrlCmd
  /-- The byte of the first `DATA` write after 0xD4 (R76). -/
  | auxCmd
  /-- A byte `ACKLOOP` reads (R77). -/
  | auxResp
  /-- A status byte `WAITW` reads (R78). -/
  | statusWrite
  /-- A status byte `WAITR` reads (R78). -/
  | statusRead
  /-- A status byte `ISTAT` reads (R78). -/
  | statusIrq
  /-- The configuration byte (R79). -/
  | cfg
  /-- The Y overflow test of packet byte 0 (R171). -/
  | pktY
  /-- The X overflow test of packet byte 0 (R171). -/
  | pktX
  /-- The left-button step (R172, R173). -/
  | pktLeft
  /-- The right-button step (R174, R175). -/
  | pktRight
  /-- The motion step (R176). -/
  | pktMotion
  deriving DecidableEq, Repr

/-- The format a place decodes (R70). -/
def Slot.format : Slot → Format
  | .request => .req2
  | .ctrlCmd => .ctrlCmd8
  | .auxCmd => .auxCmd8
  | .auxResp => .auxResp8
  | .statusWrite | .statusRead | .statusIrq => .status8
  | .cfg => .cfg8
  | .pktY | .pktX | .pktLeft | .pktRight | .pktMotion => .pktStatus8

/-- One encoded row of the opcode table: where it is decoded, its mask and match, and its instruction. -/
structure Row where
  slot : Slot
  mask : Byte
  value : Byte
  make : Byte → Instr

/-- Does byte b in place sl spell the row? -/
def Row.spelledBy (r : Row) (sl : Slot) (b : Byte) : Bool :=
  decide (r.slot = sl) && decide (b &&& r.mask = r.value)

/-- Rows of fixed bytes: the request code `req_op[1:0]` (R72; as a byte its six upper bits are 0, the interface has no
such wires), the command bytes (R75, R76) and the acknowledge (R77). -/
def fixedRows : List Row :=
  [⟨.request, 0xFF, 0x01, fun _ => .init⟩,
   ⟨.request, 0xFF, 0x02, fun _ => .irq⟩,
   ⟨.request, 0xFF, 0x03, fun _ => .reservedRequest⟩,
   ⟨.request, 0xFF, 0x00, fun _ => .nopRequest⟩,
   ⟨.ctrlCmd, 0xFF, 0xA8, fun _ => .ctrlEnableAux⟩,
   ⟨.ctrlCmd, 0xFF, 0x20, fun _ => .ctrlReadConfig⟩,
   ⟨.ctrlCmd, 0xFF, 0x60, fun _ => .ctrlWriteConfig⟩,
   ⟨.ctrlCmd, 0xFF, 0xD4, fun _ => .ctrlWriteAux⟩,
   ⟨.auxCmd, 0xFF, 0xF6, fun _ => .auxSetDefaults⟩,
   ⟨.auxCmd, 0xFF, 0xF4, fun _ => .auxEnableReporting⟩,
   ⟨.auxResp, 0xFF, 0xFA, fun _ => .auxAck⟩]

/-- Rows with ignored bits (R78 to R80): the instruction keeps the whole byte. -/
def maskedRows : List Row :=
  [⟨.statusWrite, 0x02, 0x00, .statusWriteReady⟩,
   ⟨.statusRead, 0x01, 0x01, .statusReadReady⟩,
   ⟨.statusIrq, 0x01, 0x01, .statusIrqData⟩,
   ⟨.cfg, 0x02, 0x02, .cfgIrq12En⟩,
   ⟨.pktY, 0x80, 0x80, .pktYovf⟩,
   ⟨.pktX, 0x40, 0x40, .pktXovf⟩,
   ⟨.pktLeft, 0xC1, 0x01, .pktLbtnPressed⟩,
   ⟨.pktLeft, 0xC1, 0x00, .pktLbtnReleased⟩,
   ⟨.pktRight, 0xC2, 0x02, .pktRbtnPressed⟩,
   ⟨.pktRight, 0xC2, 0x00, .pktRbtnReleased⟩,
   ⟨.pktMotion, 0xC0, 0x00, .pktMove⟩]

/-- Every encoded row of spec/opcode_table.json. -/
def encodedRows : List Row := fixedRows ++ maskedRows

/-- The decoder: the instruction that byte b spells in place sl, `none` where it spells none. -/
def decode (sl : Slot) (b : Byte) : Option Instr :=
  (encodedRows.find? fun r => r.spelledBy sl b).map fun r => r.make b

/-- The request decoder (R72, R73), total on the two bits. -/
def decodeRequest (op : BitVec 2) : Instr :=
  if op = 1 then .init else if op = 2 then .irq else if op = 3 then .reservedRequest else .nopRequest

/-- The encoder: the place and the byte of an instruction, `none` for a micro-operation (R86). -/
def encode : Instr → Option (Slot × Byte)
  | .init => some (.request, 0x01)
  | .irq => some (.request, 0x02)
  | .reservedRequest => some (.request, 0x03)
  | .nopRequest => some (.request, 0x00)
  | .waitw => none
  | .waitr => none
  | .send _ => none
  | .ackloop => none
  | .out _ _ => none
  | .inCfg => none
  | .cfgOr _ => none
  | .regirq _ _ => none
  | .istat => none
  | .idata => none
  | .decode => none
  | .ctrlEnableAux => some (.ctrlCmd, 0xA8)
  | .ctrlReadConfig => some (.ctrlCmd, 0x20)
  | .ctrlWriteConfig => some (.ctrlCmd, 0x60)
  | .ctrlWriteAux => some (.ctrlCmd, 0xD4)
  | .auxSetDefaults => some (.auxCmd, 0xF6)
  | .auxEnableReporting => some (.auxCmd, 0xF4)
  | .auxAck => some (.auxResp, 0xFA)
  | .statusWriteReady s => some (.statusWrite, s)
  | .statusReadReady s => some (.statusRead, s)
  | .statusIrqData s => some (.statusIrq, s)
  | .cfgIrq12En b => some (.cfg, b)
  | .pktYovf b => some (.pktY, b)
  | .pktXovf b => some (.pktX, b)
  | .pktLbtnPressed b => some (.pktLeft, b)
  | .pktLbtnReleased b => some (.pktLeft, b)
  | .pktRbtnPressed b => some (.pktRight, b)
  | .pktRbtnReleased b => some (.pktRight, b)
  | .pktMove b => some (.pktMotion, b)

/-- The order in which a bare table word is tried, since its bits do not say its place (log entry 11): the request
code, the command bytes, the acknowledge, then the tests of packet byte 0, the configuration byte and the status. -/
def tableSlots : List Slot :=
  [.request, .ctrlCmd, .auxCmd, .auxResp, .pktY, .pktX, .pktLeft, .pktRight, .pktMotion, .cfg,
   .statusIrq, .statusRead, .statusWrite]

/-- The instruction the decoder reads from a table word of nbits bits (every encoded row is one byte or less, so a word
with a bit above the byte spells nothing). -/
def decodeTableWord (_nbits w : Nat) : Option Instr :=
  if w < 256 then tableSlots.findSome? fun sl => decode sl (BitVec.ofNat 8 w) else none

end Sys2Proof
end

