-- ==== Sys2Proof/Machine/State.lean ====
section
/-! DEFINITION. The state of PS2CORE (10_state.md), its inputs and its trace as plain data, and the state after reset. -/

namespace Sys2Proof.Machine

/-- The packet buffer `buf[0..2]` (10_state.md R21): three 8-bit registers. -/
structure PacketBuf where
  b0 : Byte
  b1 : Byte
  b2 : Byte
  deriving DecidableEq, Repr

/-- The control state `ctl` (R27). -/
inductive Ctl where
  /-- No operation in progress. -/
  | idle
  /-- INIT is at entry k of `INIT_SEQ`. -/
  | init (k : Fin 24)
  /-- IRQ is at entry k of `IRQ_SEQ`. -/
  | irq (k : Fin 3)
  deriving DecidableEq, Repr

/-- The `kind` of a `POLL_TIMEOUT` (30_encoding.md R82). -/
inductive PollKind where
  | write
  | read
  deriving DecidableEq, Repr

/-- The events (30_encoding.md R82, 60_exceptions.md R200). Motion deltas are the signed values of R83. -/
inductive Event where
  | move (dx dy : Int)
  | leftClick
  | rightClick
  | pollTimeout (kind : PollKind)
  | ackTimeout (cmd : Byte)
  | irqRegister (line dest : Nat)
  deriving DecidableEq, Repr

/-- The trace labels (00_scope.md R16). -/
inductive Label where
  /-- `R port v`. -/
  | read (p : Port) (v : Byte)
  /-- `W port v`. -/
  | write (p : Port) (v : Byte)
  /-- `EV event`. -/
  | ev (e : Event)
  deriving DecidableEq, Repr

/-- What the requester offers in one step: (`req_valid`, `req_op[1:0]`) (30_encoding.md R71). -/
structure Request where
  valid : Bool
  op : BitVec 2
  deriving DecidableEq, Repr

/-- The two reasons of `raise Refuse(reason)` (60_exceptions.md R214). -/
inductive RefuseReason where
  | reservedRequest
  | irqBeforeRegister
  deriving DecidableEq, Repr

/-- The state: the tuple of R20, the parameters of 00_scope.md section 4, and the model's own inputs and trace. -/
structure State where
  /-- `buf[0..2]` (R21). -/
  buf : PacketBuf
  /-- `cnt` (R22). -/
  cnt : Fin 3
  /-- `leftPressed` (R24). -/
  leftPressed : Bool
  /-- `rightPressed` (R25). -/
  rightPressed : Bool
  /-- `cfg` (R26). -/
  cfg : Byte
  /-- `irqRegistered` (R31). -/
  irqRegistered : Bool
  /-- `ctl` (R27). -/
  ctl : Ctl
  /-- `i` (R28). -/
  i : Nat
  /-- `refused` (R32). -/
  refused : Bool
  /-- MODEL'S OWN: the reason `refused` was set for (R214, log entry 7). -/
  refuseReason : Option RefuseReason
  /-- The implementation parameters (R11 to R14, log entry 1). -/
  params : Params
  /-- INPUT: what the requester offers at the coming idle steps, first one first (R71, log entry 3). -/
  requests : List Request
  /-- INPUT: the reset input at the coming steps; empty is low (R230, log entry 6). -/
  resetIn : List Bool
  /-- INPUT: the bytes the environment returns to the coming `STATUS_CMD` reads (R56, R87, log entry 2). -/
  statusIn : List Byte
  /-- INPUT: the bytes the environment returns to the coming `DATA` reads (R56, R87, log entry 2). -/
  dataIn : List Byte
  /-- MODEL'S OWN: how many free read values have been drawn (R56, log entry 2). -/
  draws : Nat
  /-- OBSERVATION: the ordered list of labels, oldest first (R10, R60). -/
  trace : List Label
  deriving DecidableEq, Repr

/-- Where the machine stops because the spec gives an instruction no effect there. The hardware itself has no trap
(60_exceptions.md). -/
inductive Fault where
  /-- Raised by the meaning of a micro-operation, of SEND or of an encoded byte, asked for in a state whose `ctl` (or
  whose byte) does not select it: "Each is selected only by its position in a fixed sequence" (R86). No step raises it.
  SAFE: nothing can be proved of a run past it (log entry 8). -/
  | notSelected
  deriving DecidableEq, Repr

/-- Where the model gives no step. -/
inductive Refusal where
  /-- Raised by exec's arm of an instruction that has no meaning yet. SAFE. -/
  | notModelled (mnemonic : String)
  /-- Raised by every meaning in a state with `refused = true`, and by step there unless the reset input is high: "the
  state has no further step" (R214). SAFE: the spec itself gives no further step (log entry 7). -/
  | refusedState (reason : Option RefuseReason)
  deriving DecidableEq, Repr

/-- The state after reset (70_reset_and_hazards.md R231) under the hardware's parameters. `buf` and `cfg` are
unspecified there: 0x00 is a DESIGN CHOICE (log entry 5). No input is given and the trace is empty (R232). -/
def State.reset : State where
  buf := ⟨0, 0, 0⟩
  cnt := 0
  leftPressed := false
  rightPressed := false
  cfg := 0
  irqRegistered := false
  ctl := .idle
  i := 0
  refused := false
  refuseReason := none
  params := Params.hardware
  requests := []
  resetIn := []
  statusIn := []
  dataIn := []
  draws := 0
  trace := []

end Sys2Proof.Machine
end

