-- ==== Sys2Proof/Machine/Operands.lean ====
section
/-! DEFINITION. Operand forms and the values computed from them: status tests (30_encoding.md R78), the configuration
update (R84), the motion deltas (R83), packet slots (10_state.md R21), the operand of `OUT` (42_init.md R142), port
addresses (20_memory.md R51) and the codes of events and causes (R82, R200). -/

namespace Sys2Proof.Machine

/-- Write-ready: `(status & 0x02) == 0x00` (R78). -/
def writeReady (s : Byte) : Bool := decide (s &&& 0x02 = 0x00)

/-- Read-ready: `(status & 0x01) == 0x01` (R78). -/
def readReady (s : Byte) : Bool := decide (s &&& 0x01 = 0x01)

/-- The IRQ continue-test: `(status & 0x01) == 0x01` (R78). -/
def irqData (s : Byte) : Bool := decide (s &&& 0x01 = 0x01)

/-- `AUX_ACK`, the one response value with a meaning (R77). -/
def isAck (b : Byte) : Bool := decide (b = 0xFA)

/-- The overflow test of packet byte 0: bit 7 or bit 6 (R171). -/
def overflow (b0 : Byte) : Bool := bitOf b0 7 || bitOf b0 6

/-- `LBTN`, bit 0 of packet byte 0 (R80). -/
def leftBit (b0 : Byte) : Bool := bitOf b0 0

/-- `RBTN`, bit 1 of packet byte 0 (R80; PRESUMED by the spec itself, G2 and D11, log entry 12). -/
def rightBit (b0 : Byte) : Bool := bitOf b0 1

/-- `sext_8(b) = b - 256 * b[7]` (R17, R83). -/
def sext8 (b : Byte) : Int := (b.toNat : Int) - 256 * (if bitOf b 7 then 1 else 0)

/-- `cfg | mask` (R84, R144). -/
def cfgWith (mask cfg : Byte) : Byte := cfg ||| mask

/-- `buf[k]` (R21). -/
def PacketBuf.get (b : PacketBuf) (k : Fin 3) : Byte :=
  match k with
  | 0 => b.b0
  | 1 => b.b1
  | 2 => b.b2

/-- `buf[k] <- v` (R21, R163). -/
def PacketBuf.set (b : PacketBuf) (k : Fin 3) (v : Byte) : PacketBuf :=
  match k with
  | 0 => { b with b0 := v }
  | 1 => { b with b1 := v }
  | 2 => { b with b2 := v }

/-- The value of `OUT`'s operand v: the immediate, or the current value of `cfg` (R142). -/
def OutVal.value (s : State) : OutVal → Byte
  | .imm v => v
  | .cfg => s.cfg

/-- The address of a port (R13, R51). -/
def portAddress (c : Params) : Port → Nat
  | .data => c.dataPort
  | .statusCmd => c.statusCmdPort

/-- The port address a label drives, `none` for an event (R51: "No other port address is ever driven"). -/
def Label.address (c : Params) : Label → Option Nat
  | .read p _ => some (portAddress c p)
  | .write p _ => some (portAddress c p)
  | .ev _ => none

/-- Is the label a port transaction (R9)? -/
def Label.isPort : Label → Bool
  | .read _ _ => true
  | .write _ _ => true
  | .ev _ => false

/-- The code of an event (R82, the spec's own numbers D18). -/
def Event.code : Event → Nat
  | .move _ _ => 1
  | .leftClick => 2
  | .rightClick => 3
  | .pollTimeout _ => 4
  | .ackTimeout _ => 5
  | .irqRegister _ _ => 6

/-- The number of a timeout's kind: `WRITE` (0) or `READ` (1) (R82). -/
def PollKind.code : PollKind → Nat
  | .write => 0
  | .read => 1

/-- The error cause an event signals (R200): `PollTimeout` 1, `AckNotReceived` 3. Cause 2, `PacketOverflow`, is silent,
and the other events are "normal outputs, not errors". -/
def Event.cause : Event → Option Nat
  | .pollTimeout _ => some 1
  | .ackTimeout _ => some 3
  | .move _ _ | .leftClick | .rightClick | .irqRegister _ _ => none

/-- The silent cause of a completed packet, `PacketOverflow` (R200, R202). -/
def packetCause (b0 : Byte) : Option Nat := if overflow b0 then some 2 else none

end Sys2Proof.Machine
end

