-- ==== Sys2Proof/Machine/Ops.lean ====
section
/-! DEFINITION. The primitives of 00_scope.md R18 over State: port reads and writes, events, the moves of `ctl`, the
acceptance of a request, interrupt entry and return (60_exceptions.md R210, R211), refusal (R214), reset (R230) and the
one guard every meaning begins with. -/

namespace Sys2Proof.Machine

/-- The outcome of one instruction or step. -/
abbrev Out := Host.Outcome State Fault Refusal

/-! ### Port reads and writes -/

/-- The byte the next `PortRead p` returns: the environment script's next byte, else a free value (R56). -/
def State.readValue (s : State) : Port → Byte
  | .data =>
    match s.dataIn with
    | b :: _ => b
    | [] => Config.freeData s.draws
  | .statusCmd =>
    match s.statusIn with
    | b :: _ => b
    | [] => Config.freeStatus s.draws

/-- The environment after it has answered one read of p. -/
def State.takeInput (s : State) : Port → State
  | .data =>
    match s.dataIn with
    | _ :: rest => { s with dataIn := rest }
    | [] => { s with draws := s.draws + 1 }
  | .statusCmd =>
    match s.statusIn with
    | _ :: rest => { s with statusIn := rest }
    | [] => { s with draws := s.draws + 1 }

/-- `PortRead(p)` (R18): one read transaction; it appends the label `R p v` and changes no register (R57). -/
def State.didRead (s : State) (p : Port) : State :=
  { s.takeInput p with trace := s.trace ++ [.read p (s.readValue p)] }

/-- `PortWrite(p, v)` (R18): one write transaction; it appends `W p v` and "changes no state of PS2CORE" (R58). -/
def State.portWrite (s : State) (p : Port) (v : Byte) : State :=
  { s with trace := s.trace ++ [.write p v] }

/-- `emit E` (R18): the event takes its place in the trace, and no consumer is waited for (R65). -/
def State.emit (s : State) (e : Event) : State :=
  { s with trace := s.trace ++ [.ev e] }

/-! ### Moves of `ctl` and of the retry counter -/

/-- The control state after entry k: "moves from entry k to entry k+1, and the last entry moves to IDLE" (R27). -/
def Ctl.next : Ctl → Ctl
  | .idle => .idle
  | .init k => if h : k.val + 1 < 24 then .init ⟨k.val + 1, h⟩ else .idle
  | .irq k => if h : k.val + 1 < 3 then .irq ⟨k.val + 1, h⟩ else .idle

/-- A micro-operation ends normally: `ctl <- INIT(k+1)`, or `IDLE` after the last entry (R27). -/
def State.advance (s : State) : State := { s with ctl := s.ctl.next }

/-- A looping micro-operation ends: "sets it to 0 when it ends" (R28), and `ctl` moves on. -/
def State.endLoop (s : State) : State := { s with i := 0, ctl := s.ctl.next }

/-- One more read without success (R28): `i <- i + 1`, `ctl` unchanged. -/
def State.countRetry (s : State) : State := { s with i := s.i + 1 }

/-- `return`: `ctl <- IDLE`. "Nothing is restored" (R18, R211). -/
def State.toIdle (s : State) : State := { s with ctl := .idle }

/-- Interrupt entry: `ctl <- IRQ(0)`. "No state is saved", there is no vector (R160, R210). Entry 0 of `IRQ_SEQ` follows in
the same step (R71). -/
def State.enterIrq (s : State) : State := { s with ctl := .irq 0 }

/-- Acceptance of INIT: `ctl <- INIT(0); i <- 0` (R140). -/
def State.enterInit (s : State) : State := { s with ctl := .init 0, i := 0 }

/-! ### Requests, refusal and reset -/

/-- The requester's offer has been taken (R71). -/
def State.takeOffer (s : State) : State := { s with requests := s.requests.tail }

/-- `raise Refuse(reason)` sets `refused <- true` (R214). -/
def State.raiseRefuse (s : State) (r : RefuseReason) : State :=
  { s with refused := true, refuseReason := some r }

/-- Reset (R230): the block goes to the reset state of R231 "whatever the block was doing", emitting nothing. The
parameters, the inputs still to come and the trace so far are not the block's and stay. -/
def State.hardReset (s : State) : State :=
  { State.reset with
    params := s.params, requests := s.requests, resetIn := s.resetIn,
    statusIn := s.statusIn, dataIn := s.dataIn, draws := s.draws, trace := s.trace }

/-- One step's level of the reset input has been seen (log entry 6). -/
def State.tick (s : State) : State := { s with resetIn := s.resetIn.tail }

/-! ### The guard of every meaning -/

/-- A refused state "has no further step" (R214); an instruction that the state does not select has no effect there
(R86) and faults by name; else the next state is t. -/
def runIf (s : State) (selected : Prop) [Decidable selected] (t : State) : Out :=
  if s.refused = true then .refused (.refusedState s.refuseReason)
  else if selected then .next t
  else .fault .notSelected

/-- A request at the interface (R30, R71): taken at `IDLE`, giving t; while `ctl ≠ IDLE` "the block does not accept" and
the requester keeps it, so nothing changes. -/
def onRequest (s t : State) : Out :=
  if s.refused = true then .refused (.refusedState s.refuseReason)
  else if s.ctl = .idle then .next t
  else .next s

end Sys2Proof.Machine
end

