-- ==== Sys2Proof/Machine/Flags.lean ====
section
/-! DEFINITION. The only flags of the block (10_state.md R33): `leftPressed`, `rightPressed`, `irqRegistered`. -/

namespace Sys2Proof.Machine

/-- `leftPressed <- true` (43_packet.md R173). -/
def State.pressLeft (s : State) : State := { s with leftPressed := true }

/-- `leftPressed <- false` (R172). -/
def State.clearLeft (s : State) : State := { s with leftPressed := false }

/-- `rightPressed <- true` (R175). -/
def State.pressRight (s : State) : State := { s with rightPressed := true }

/-- `rightPressed <- false` (R174). -/
def State.clearRight (s : State) : State := { s with rightPressed := false }

/-- `irqRegistered <- true` (42_init.md R150); "never cleared" (R31). -/
def State.register (s : State) : State := { s with irqRegistered := true }

/-- A release edge: the button bit is 0 while the stored flag is true (00_scope.md section 6, R180). -/
def releaseEdge (flag bit : Bool) : Bool := flag && !bit

/-- The left flag after a left step that did not end the decode: R173 sets it, else it keeps its value (R180). -/
def State.leftStored (s : State) : State := if leftBit s.buf.b0 then s.pressLeft else s

/-- The right flag after a right step that did not end the decode (R175, R180). -/
def State.rightStored (s : State) : State := if rightBit s.buf.b0 then s.pressRight else s

end Sys2Proof.Machine
end

