-- ==== Sys2Proof/Machine/Sequence.lean ====
section
/-! DEFINITION. The fixed sequences `INIT_SEQ` (42_init.md R141) and `IRQ_SEQ` (43_packet.md R161), the expansion of SEND
(41_command.md R120), and what the state selects: this hardware's fetch (20_memory.md R63: "Nothing is fetched"). -/

namespace Sys2Proof.Machine

/-- Entry k of `INIT_SEQ` (R141). -/
def initSeq (c : Params) (k : Fin 24) : Instr :=
  match k.val with
  | 0 => .waitw
  | 1 => .out .statusCmd (.imm 0xA8)
  | 2 => .waitw
  | 3 => .out .statusCmd (.imm 0x20)
  | 4 => .waitr
  | 5 => .inCfg
  | 6 => .cfgOr 0x02
  | 7 => .waitw
  | 8 => .out .statusCmd (.imm 0x60)
  | 9 => .waitw
  | 10 => .out .data .cfg
  | 11 => .waitw
  | 12 => .out .statusCmd (.imm 0xD4)
  | 13 => .waitw
  | 14 => .out .data (.imm 0xF6)
  | 15 => .waitr
  | 16 => .ackloop
  | 17 => .waitw
  | 18 => .out .statusCmd (.imm 0xD4)
  | 19 => .waitw
  | 20 => .out .data (.imm 0xF4)
  | 21 => .waitr
  | 22 => .ackloop
  | _ => .regirq c.irqLine c.irqDest

/-- Entry k of `IRQ_SEQ` (R161). -/
def irqSeq (k : Fin 3) : Instr :=
  match k.val with
  | 0 => .istat
  | 1 => .idata
  | _ => .decode

/-- The expansion of `SEND c` (R88, R120). -/
def sendExpansion (c : Byte) : List Instr :=
  [.waitw, .out .statusCmd (.imm 0xD4), .waitw, .out .data (.imm c), .waitr, .ackloop]

/-- Where a SEND stands (R120): its operand and which of its six micro-operations entry k is. -/
def sendAt (k : Fin 24) : Option (Byte × Nat) :=
  if 11 ≤ k.val ∧ k.val ≤ 16 then some (0xF6, k.val - 11)
  else if 17 ≤ k.val ∧ k.val ≤ 22 then some (0xF4, k.val - 17)
  else none

/-- The SEND that encloses the current entry, if any. -/
def State.enclosingSend (s : State) : Option (Byte × Nat) :=
  match s.ctl with
  | .init k => sendAt k
  | .irq _ => none
  | .idle => none

/-- The micro-operation that `ctl` selects, `none` when idle (R27, R86). -/
def State.microOp (s : State) : Option Instr :=
  match s.ctl with
  | .init k => some (initSeq s.params k)
  | .irq k => some (irqSeq k)
  | .idle => none

/-- The request offered at the interface now (R71, R73): `req_valid` low is no request. -/
def State.offered (s : State) : Instr :=
  match s.requests with
  | [] => .nopRequest
  | r :: _ => if r.valid then decodeRequest r.op else .nopRequest

/-- The instruction of the next step: the offered request when idle, else the entry that `ctl` names. -/
def State.fetch (s : State) : Instr :=
  match s.ctl with
  | .idle => s.offered
  | .init k => initSeq s.params k
  | .irq k => irqSeq k

end Sys2Proof.Machine
end

