-- ==== Sys2Proof/Machine/Init.lean ====
section
/-! DEFINITION. The micro-operations of the Initialization Sequencer (42_init.md) and the bytes it writes
(30_encoding.md R75, R76). -/

namespace Sys2Proof.Machine

/-- One `OUT p, v` (R142): `PortWrite(p, v); ctl <- INIT(k+1)`. "A write always completes". -/
def State.outStep (s : State) (p : Port) (v : Byte) : State := (s.portWrite p v).advance

/-- `OUT p, v` (R142). -/
def execOut (p : Port) (v : OutVal) (s : State) : Out :=
  runIf s (s.microOp = some (.out p v)) (s.outStep p (OutVal.value s v))

/-- `IN DATA -> cfg` (R143): `cfg <- PortRead(DATA); ctl <- INIT(6)`. -/
def execInCfg (s : State) : Out :=
  runIf s (s.microOp = some .inCfg) { s.didRead .data with cfg := s.readValue .data, ctl := .init 6 }

/-- `CFG_OR mask` (R144): `cfg <- cfg | 0x02; ctl <- INIT(7)`, no port transaction and no label. -/
def execCfgOr (mask : Byte) (s : State) : Out :=
  runIf s (s.microOp = some (.cfgOr mask)) { s with cfg := cfgWith mask s.cfg, ctl := .init 7 }

/-- `REGIRQ line, dest` (R150): emit `IRQ_REGISTER`, set `irqRegistered`, `ctl <- IDLE`. -/
def execRegirq (line dest : Nat) (s : State) : Out :=
  runIf s (s.microOp = some (.regirq line dest)) ((s.emit (.irqRegister line dest)).register).toIdle

/-- Controller command 0xA8 written to `STATUS_CMD` (R75). -/
def execCtrlEnableAux (s : State) : Out :=
  runIf s (s.microOp = some (.out .statusCmd (.imm 0xA8))) (s.outStep .statusCmd 0xA8)

/-- Controller command 0x20 written to `STATUS_CMD` (R75). -/
def execCtrlReadConfig (s : State) : Out :=
  runIf s (s.microOp = some (.out .statusCmd (.imm 0x20))) (s.outStep .statusCmd 0x20)

/-- Controller command 0x60 written to `STATUS_CMD` (R75, 90_conflicts.md C3). -/
def execCtrlWriteConfig (s : State) : Out :=
  runIf s (s.microOp = some (.out .statusCmd (.imm 0x60))) (s.outStep .statusCmd 0x60)

/-- The gateway byte 0xD4 written to `STATUS_CMD` (R75, R121). -/
def execCtrlWriteAux (s : State) : Out :=
  runIf s (s.microOp = some (.out .statusCmd (.imm 0xD4))) (s.outStep .statusCmd 0xD4)

/-- Mouse command 0xF6 written to `DATA` (R76). -/
def execAuxSetDefaults (s : State) : Out :=
  runIf s (s.microOp = some (.out .data (.imm 0xF6))) (s.outStep .data 0xF6)

/-- Mouse command 0xF4 written to `DATA` (R76). -/
def execAuxEnableReporting (s : State) : Out :=
  runIf s (s.microOp = some (.out .data (.imm 0xF4))) (s.outStep .data 0xF4)

/-- The configuration byte b with bit 1 set (R79): what CFG_OR leaves in `cfg`, every other bit copied (R84). -/
def execCfgIrq12En (b : Byte) (s : State) : Out :=
  runIf s (s.microOp = some (.cfgOr 0x02) ∧ b &&& 0x02 = 0x02 ∧ cfgWith 0x02 s.cfg = b)
    { s with cfg := b, ctl := .init 7 }

end Sys2Proof.Machine
end

