-- ==== Sys2Proof/Machine/Poll.lean ====
section
/-! DEFINITION. The Wait/Poll unit (40_poll.md). -/

namespace Sys2Proof.Machine

/-- One step of the common poll loop (R100 to R103): read the status; ready ends it, the POLL_BOUND-th failed read emits
`POLL_TIMEOUT` and ends it "as if its condition had held" (R102), else count and poll again. -/
def State.pollStep (s : State) (ready : Byte → Bool) (kind : PollKind) : State :=
  if ready (s.readValue .statusCmd) then (s.didRead .statusCmd).endLoop
  else if s.i + 1 = s.params.pollBound then ((s.didRead .statusCmd).emit (.pollTimeout kind)).endLoop
  else (s.didRead .statusCmd).countRetry

/-- `WAITW` (R101). -/
def execWaitw (s : State) : Out := runIf s (s.microOp = some .waitw) (s.pollStep writeReady .write)

/-- `WAITR` (R103). -/
def execWaitr (s : State) : Out := runIf s (s.microOp = some .waitr) (s.pollStep readReady .read)

/-- A status byte read by WAITW with bit 1 clear (R78, R101): the wait ends. -/
def execStatusWriteReady (b : Byte) (s : State) : Out :=
  runIf s (s.microOp = some .waitw ∧ s.readValue .statusCmd = b ∧ b &&& 0x02 = 0x00) (s.didRead .statusCmd).endLoop

/-- A status byte read by WAITR with bit 0 set (R78, R103): the wait ends. -/
def execStatusReadReady (b : Byte) (s : State) : Out :=
  runIf s (s.microOp = some .waitr ∧ s.readValue .statusCmd = b ∧ b &&& 0x01 = 0x01) (s.didRead .statusCmd).endLoop

end Sys2Proof.Machine
end

