-- ==== Sys2Proof/Machine/Command.lean ====
section
/-! DEFINITION. The Command Protocol unit (41_command.md): ACKLOOP, the acknowledge byte and SEND. -/

namespace Sys2Proof.Machine

/-- `ACK_TIMEOUT(c)`, c the operand of the enclosing SEND (R122). -/
def State.emitAckTimeout (s : State) : State :=
  match s.enclosingSend with
  | some (c, _) => s.emit (.ackTimeout c)
  | none => s

/-- A DATA byte other than 0xFA in ACKLOOP (R122): discarded. Without a bound nothing else changes; with a bound n, the
n-th such read emits `ACK_TIMEOUT(c)` and ends the loop (R123), and an earlier one is counted. -/
def State.notAcked (s : State) : State :=
  match s.params.ackBound with
  | none => s
  | some n => if s.i + 1 = n then s.emitAckTimeout.endLoop else s.countRetry

/-- One step of ACKLOOP (R122): one DATA read, no status check (92_eei_decisions.md D26). -/
def State.ackStep (s : State) : State :=
  if isAck (s.readValue .data) then (s.didRead .data).endLoop else (s.didRead .data).notAcked

/-- `ACKLOOP` (R122). -/
def execAckloop (s : State) : Out := runIf s (s.microOp = some .ackloop) s.ackStep

/-- The acknowledge byte 0xFA read by ACKLOOP (R77, R122): the loop ends. -/
def execAuxAck (s : State) : Out :=
  runIf s (s.microOp = some .ackloop ∧ s.readValue .data = 0xFA) (s.didRead .data).endLoop

/-- One step of `SEND c` (R120): the j-th micro-operation of its expansion. -/
def State.sendStep (s : State) (c : Byte) : Nat → State
  | 0 => s.pollStep writeReady .write
  | 1 => s.outStep .statusCmd 0xD4
  | 2 => s.pollStep writeReady .write
  | 3 => s.outStep .data c
  | 4 => s.pollStep readReady .read
  | _ => s.ackStep

/-- `SEND c` (R88, R120), a pseudo-operation over six entries of `INIT_SEQ`: one step of it is the micro-operation of
its expansion that the current entry names (log entry 9). -/
def execSend (c : Byte) (s : State) : Out :=
  runIf s (s.enclosingSend.map Prod.fst = some c) (s.sendStep c ((s.enclosingSend.map Prod.snd).getD 0))

end Sys2Proof.Machine
end

