-- ==== Sys2Proof/Machine/Packet.lean ====
section
/-! DEFINITION. The Packet Assembler, the decode with its edge detector, and the tests of packet byte 0 (43_packet.md). -/

namespace Sys2Proof.Machine

/-! ### The assembler -/

/-- The status check on entry (R162), entry 0 of `IRQ_SEQ`: one status read; bit 0 clear is a spurious wake. -/
def State.istatStep (s : State) : State :=
  if irqData (s.readValue .statusCmd) then { s.didRead .statusCmd with ctl := .irq 1 }
  else (s.didRead .statusCmd).toIdle

/-- `ISTAT` (R162). -/
def execIstat (s : State) : Out := runIf s (s.microOp = some .istat) s.istatStep

/-- A status byte read by ISTAT with bit 0 set (R78, R162): the IRQ goes on to IDATA. -/
def execStatusIrqData (b : Byte) (s : State) : Out :=
  runIf s (s.microOp = some .istat ∧ s.readValue .statusCmd = b ∧ b &&& 0x01 = 0x01)
    { s.didRead .statusCmd with ctl := .irq 1 }

/-- The counter after one more stored byte (R164): "3 is never stored". -/
def nextCount (cnt : Fin 3) : Fin 3 := if h : cnt.val < 2 then ⟨cnt.val + 1, by omega⟩ else 0

/-- The counter step (R164), after the store: below 3 the IRQ returns, at 3 the counter is 0 and the decode is next. -/
def State.counterStep (s : State) : State :=
  { s with cnt := nextCount s.cnt, ctl := if s.cnt.val < 2 then .idle else .irq 2 }

/-- The store of R163: `buf[cnt] <- b`. -/
def State.storeByte (s : State) (b : Byte) : State := { s with buf := s.buf.set s.cnt b }

/-- `IDATA` (R163): one DATA read, stored at `buf[cnt]`, then the counter step of R164. -/
def execIdata (s : State) : Out :=
  runIf s (s.microOp = some .idata) ((s.didRead .data).storeByte (s.readValue .data)).counterStep

/-! ### The decode -/

/-- Motion dispatch, step 4 (R176). -/
def State.motionStep (s : State) : State := (s.emit (.move (sext8 s.buf.b1) (sext8 s.buf.b2))).toIdle

/-- The right release edge fires (R174): the decode ends without the motion step. -/
def State.rightClicked (s : State) : State := (s.clearRight.emit .rightClick).toIdle

/-- The left release edge fires (R172): neither the right-button step nor the motion step runs. -/
def State.leftClicked (s : State) : State := (s.clearLeft.emit .leftClick).toIdle

/-- The right-button step, step 3 (R174, R175). -/
def State.rightStep (s : State) : State :=
  if rightBit s.buf.b0 then s.pressRight.motionStep
  else if s.rightPressed then s.rightClicked
  else s.motionStep

/-- The left-button step, step 2 (R172, R173). -/
def State.leftStep (s : State) : State :=
  if leftBit s.buf.b0 then s.pressLeft.rightStep
  else if s.leftPressed then s.leftClicked
  else s.rightStep

/-- The decode (R170): overflow discards the packet (R171), else left, right, motion, "in this order and no other". -/
def State.decodeStep (s : State) : State := if overflow s.buf.b0 then s.toIdle else s.leftStep

/-- `DECODE` (R170). -/
def execDecode (s : State) : Out := runIf s (s.microOp = some .decode) s.decodeStep

/-! ### The tests of packet byte 0, each as the DECODE step of a packet that meets it (log entry 10) -/

/-- DECODE is selected and packet byte 0 is b. -/
abbrev State.decoding (s : State) (b : Byte) : Prop := s.microOp = some .decode ∧ s.buf.b0 = b

/-- Bit 7 set (R171): the packet is discarded. -/
def execPktYovf (b : Byte) (s : State) : Out := runIf s (s.decoding b ∧ b &&& 0x80 = 0x80) s.toIdle

/-- Bit 6 set (R171): the packet is discarded. -/
def execPktXovf (b : Byte) (s : State) : Out := runIf s (s.decoding b ∧ b &&& 0x40 = 0x40) s.toIdle

/-- No overflow, left bit set (R173): `leftPressed <- true`, and the decode goes on to the right-button step. -/
def execPktLbtnPressed (b : Byte) (s : State) : Out :=
  runIf s (s.decoding b ∧ b &&& 0xC1 = 0x01) s.pressLeft.rightStep

/-- No overflow, left bit clear (R172): a release edge ends the decode, else it goes on to the right-button step. -/
def execPktLbtnReleased (b : Byte) (s : State) : Out :=
  runIf s (s.decoding b ∧ b &&& 0xC1 = 0x00) (if s.leftPressed then s.leftClicked else s.rightStep)

/-- No overflow, right bit set, reached only if no left release edge fired (R175): `rightPressed <- true`, then motion. -/
def execPktRbtnPressed (b : Byte) (s : State) : Out :=
  runIf s (s.decoding b ∧ b &&& 0xC2 = 0x02 ∧ releaseEdge s.leftPressed (leftBit b) = false)
    s.leftStored.pressRight.motionStep

/-- No overflow, right bit clear, reached only if no left release edge fired (R174). -/
def execPktRbtnReleased (b : Byte) (s : State) : Out :=
  runIf s (s.decoding b ∧ b &&& 0xC2 = 0x00 ∧ releaseEdge s.leftPressed (leftBit b) = false)
    (if s.rightPressed then s.leftStored.rightClicked else s.leftStored.motionStep)

/-- No overflow and no release edge (R176): `MOVE(dx, dy)`. -/
def execPktMove (b : Byte) (s : State) : Out :=
  runIf s
    (s.decoding b ∧ b &&& 0xC0 = 0x00 ∧ releaseEdge s.leftPressed (leftBit b) = false ∧
      releaseEdge s.rightPressed (rightBit b) = false)
    s.leftStored.rightStored.motionStep

end Sys2Proof.Machine
end

