-- ==== Sys2Proof/Machine/Request.lean ====
section
/-! DEFINITION. The four request codes (30_encoding.md R71 to R73, 42_init.md R140, 43_packet.md R160). -/

namespace Sys2Proof.Machine

/-- `INIT` (R140): accepted at `IDLE` only, it starts `INIT_SEQ`, whatever `irqRegistered` holds (R153). The acceptance
is a step of its own, which R140 allows ("a model may merge or split them", log entry 4). -/
def execInit (s : State) : Out := onRequest s s.takeOffer.enterInit

/-- `IRQ` (R160): accepted at `IDLE` only; refused while the line is not registered, else the interrupt entry. "The
accepting step is the first step of the operation" (R71): entry 0 of `IRQ_SEQ` is performed in it, and an IRQ takes the 1,
2 or 3 steps of R161. -/
def execIrq (s : State) : Out :=
  onRequest s
    (if s.irqRegistered then s.takeOffer.enterIrq.istatStep else s.takeOffer.raiseRefuse .irqBeforeRegister)

/-- Request code 11 (R73): "When the block accepts it, the model does raise Refuse(RESERVED_REQUEST)". -/
def execReservedRequest (s : State) : Out := onRequest s (s.takeOffer.raiseRefuse .reservedRequest)

/-- Request code 00, or `req_valid` low (R73): "the block stays IDLE and emits nothing". -/
def execNopRequest (s : State) : Out := onRequest s s.takeOffer

end Sys2Proof.Machine
end

