-- ==== Sys2Proof/Machine/Dispatch.lean ====
section
/-! DEFINITION. One arm per constructor of Instr. -/

namespace Sys2Proof.Machine

def exec (i : Instr) (s : State) : Host.Outcome State Fault Refusal :=
  match i with
  -- requests
  | .init => Sys2Proof.Machine.execInit s
  | .irq => Sys2Proof.Machine.execIrq s
  | .reservedRequest => Sys2Proof.Machine.execReservedRequest s
  | .nopRequest => Sys2Proof.Machine.execNopRequest s
  -- micro-operations
  | .waitw => Sys2Proof.Machine.execWaitw s
  | .waitr => Sys2Proof.Machine.execWaitr s
  | .send c => Sys2Proof.Machine.execSend c s
  | .ackloop => Sys2Proof.Machine.execAckloop s
  | .out p v => Sys2Proof.Machine.execOut p v s
  | .inCfg => Sys2Proof.Machine.execInCfg s
  | .cfgOr mask => Sys2Proof.Machine.execCfgOr mask s
  | .regirq line dest => Sys2Proof.Machine.execRegirq line dest s
  | .istat => Sys2Proof.Machine.execIstat s
  | .idata => Sys2Proof.Machine.execIdata s
  | .decode => Sys2Proof.Machine.execDecode s
  -- bytes written
  | .ctrlEnableAux => Sys2Proof.Machine.execCtrlEnableAux s
  | .ctrlReadConfig => Sys2Proof.Machine.execCtrlReadConfig s
  | .ctrlWriteConfig => Sys2Proof.Machine.execCtrlWriteConfig s
  | .ctrlWriteAux => Sys2Proof.Machine.execCtrlWriteAux s
  | .auxSetDefaults => Sys2Proof.Machine.execAuxSetDefaults s
  | .auxEnableReporting => Sys2Proof.Machine.execAuxEnableReporting s
  -- bytes recognised
  | .auxAck => Sys2Proof.Machine.execAuxAck s
  | .statusWriteReady b => Sys2Proof.Machine.execStatusWriteReady b s
  | .statusReadReady b => Sys2Proof.Machine.execStatusReadReady b s
  | .statusIrqData b => Sys2Proof.Machine.execStatusIrqData b s
  | .cfgIrq12En b => Sys2Proof.Machine.execCfgIrq12En b s
  | .pktYovf b => Sys2Proof.Machine.execPktYovf b s
  | .pktXovf b => Sys2Proof.Machine.execPktXovf b s
  | .pktLbtnPressed b => Sys2Proof.Machine.execPktLbtnPressed b s
  | .pktLbtnReleased b => Sys2Proof.Machine.execPktLbtnReleased b s
  | .pktRbtnPressed b => Sys2Proof.Machine.execPktRbtnPressed b s
  | .pktRbtnReleased b => Sys2Proof.Machine.execPktRbtnReleased b s
  | .pktMove b => Sys2Proof.Machine.execPktMove b s

end Sys2Proof.Machine
end

