-- ==== Sys2Proof/Machine/Place.lean ====
section
/-! DEFINITION. Where a bare table word is put so that the next step runs it (log entry 11): the hardware fetches
nothing (20_memory.md R63), so the word is offered as a request, or `ctl` and the byte the step decodes are set. -/

namespace Sys2Proof.Machine

/-- The word is offered by the requester and the block is idle. -/
def State.offering (s : State) (op : BitVec 2) : State :=
  { s with ctl := .idle, requests := ⟨true, op⟩ :: s.requests }

/-- The block stands at entry k of `INIT_SEQ`. -/
def State.atInit (s : State) (k : Fin 24) : State := { s with ctl := .init k }

/-- DECODE is next, of a packet whose byte 0 is b. -/
def State.atDecode (s : State) (b : Byte) : State := { s with ctl := .irq 2, buf := { s.buf with b0 := b } }

/-- The state from which the next step runs i. Micro-operations have no word (R86): the state stays. -/
def State.placed (s : State) : Instr → State
  | .init => s.offering 1
  | .irq => s.offering 2
  | .reservedRequest => s.offering 3
  | .nopRequest => s.offering 0
  | .ctrlEnableAux => s.atInit 1
  | .ctrlReadConfig => s.atInit 3
  | .ctrlWriteConfig => s.atInit 8
  | .ctrlWriteAux => s.atInit 12
  | .auxSetDefaults => s.atInit 14
  | .auxEnableReporting => s.atInit 20
  | .auxAck => { s.atInit 16 with dataIn := 0xFA :: s.dataIn }
  | .statusWriteReady b => { s.atInit 0 with statusIn := b :: s.statusIn }
  | .statusReadReady b => { s.atInit 4 with statusIn := b :: s.statusIn }
  | .statusIrqData b => { s with ctl := .irq 0, statusIn := b :: s.statusIn }
  | .cfgIrq12En b => { s.atInit 6 with cfg := b }
  | .pktYovf b => s.atDecode b
  | .pktXovf b => s.atDecode b
  | .pktLbtnPressed b => s.atDecode b
  | .pktLbtnReleased b => s.atDecode b
  | .pktRbtnPressed b => { s.atDecode b with leftPressed := false }
  | .pktRbtnReleased b => { s.atDecode b with leftPressed := false }
  | .pktMove b => { s.atDecode b with leftPressed := false, rightPressed := false }
  | .waitw | .waitr | .send _ | .ackloop | .out _ _ | .inCfg | .cfgOr _ | .regirq _ _ | .istat | .idata | .decode => s

/-- A step can be taken: not refused, and the reset input low. -/
def State.runnable (s : State) : State :=
  { s with refused := false, refuseReason := none
           resetIn := if s.resetIn.head? = some true then false :: s.resetIn.tail else s.resetIn }

end Sys2Proof.Machine
end

