-- ==== Sys2Proof/Machine/Step.lean ====
section
/-! DEFINITION. One step of PS2CORE (00_scope.md R9, R19). -/

namespace Sys2Proof.Machine

/-- One step. Where the reset input is high the block is reset, "at any time" and "whatever the block was doing" (R230),
out of a refused state too (log entry 7). Else a refused state has no step (R214), and any other state runs the
instruction it selects. -/
def step (s : State) : Host.Outcome State Fault Refusal :=
  if s.resetIn.head? = some true then .next s.tick.hardReset
  else if s.refused = true then .refused (.refusedState s.refuseReason)
  else exec s.tick.fetch s.tick

/-- The state whose next step runs the instruction that the table word w spells (log entry 11). -/
def State.withFetchWord (s : State) (nbits w : Nat) : State :=
  match decodeTableWord nbits w with
  | some i => s.runnable.placed i
  | none => s

end Sys2Proof.Machine
end

