-- ==== Sys2Proof/Safety.lean ====
section
/-! DEFINITION. What a claim calls a run's end (60_exceptions.md R215), a good state (the invariant of the reachable
states, from 10_state.md R22, R23, R28, R31, R32) and the footprint of a step (00_scope.md R9). -/

namespace Sys2Proof.Machine

/-- IRQ is in progress. -/
def Ctl.isIrq : Ctl → Bool
  | .irq _ => true
  | .init _ => false
  | .idle => false

/-- INIT is in progress. -/
def Ctl.isInit : Ctl → Bool
  | .init _ => true
  | .irq _ => false
  | .idle => false

/-- The bound of the retry counter at the current entry (R28): the reads of a poll, the reads of a bounded ACKLOOP, and 1
(so that i is 0) everywhere else. -/
def State.retryLimit (s : State) : Nat :=
  match s.microOp with
  | some .waitw => s.params.pollBound
  | some .waitr => s.params.pollBound
  | some .ackloop => s.params.ackBound.getD 1
  | _ => 1

/-- The block "is at rest": idle, not refused, no request offered (R215). -/
abbrev State.atRest (s : State) : Prop := s.ctl = .idle ∧ s.refused = false ∧ s.offered = .nopRequest

/-- Entries 7 to 10 of INIT: CFG_OR has run and the configuration byte is not written back yet (R141). -/
def State.cfgReady (s : State) : Bool :=
  match s.ctl with
  | .init k => decide (7 ≤ k.val) && decide (k.val ≤ 10)
  | .irq _ => false
  | .idle => false

/-- The invariant of the reachable states: legal parameters (R11, R12); a refused state names its reason and is idle
(R30, R214); the retry counter is below its bound, hence 0 outside the loops (R28); an IRQ runs only with the line
registered (R160); DECODE finds the counter reset (R164); the line is registered only after its event (R31, R150); and
the byte INIT writes back has IRQ12_EN set (R84). -/
abbrev State.Inv (s : State) : Prop :=
  s.params.legal = true ∧
  s.refused = s.refuseReason.isSome ∧
  (s.refused = true → s.ctl = .idle) ∧
  s.i < s.retryLimit ∧
  (s.ctl.isIrq = true → s.irqRegistered = true) ∧
  (s.ctl = .irq 2 → s.cnt = 0) ∧
  (s.irqRegistered = true → Label.ev (.irqRegister s.params.irqLine s.params.irqDest) ∈ s.trace) ∧
  (s.cfgReady = true → bitOf s.cfg 1 = true)

/-- n steps, stopping at the first fault or refusal. -/
def run : Nat → State → Out
  | 0, s => .next s
  | n + 1, s =>
    match step s with
    | .next t => run n t
    | .fault r => .fault r
    | .refused r => .refused r

/-- The labels one step may add (R9, R19): at most one port transaction, then at most one event. -/
def stepLabels : List Label → Bool
  | [] => true
  | [_] => true
  | [l, m] => l.isPort && !m.isPort
  | _ => false

end Sys2Proof.Machine
end

