-- ==== Sys2Proof/Certificates/Slice0/Obligations.lean ====
section
/-! DEFINITION. The statements for the provers, from the numbered rules of spec/. -/

open Sys2Proof Sys2Proof.Machine

/-! ### Encodings (30_encoding.md) -/

/-- Words written out from the tables of R72, R73, R75, R76, R77, R78, R79 and R80 decode to their instructions. The
right button's bit is the spec's own general knowledge (G2, D11, log entry 12). -/
def Obligations.TableWordsDecode : Prop :=
  decode .request 0b01 = some .init ∧ decode .request 0b10 = some .irq ∧
  decode .request 0b11 = some .reservedRequest ∧ decode .request 0b00 = some .nopRequest ∧
  decode .ctrlCmd 0b10101000 = some .ctrlEnableAux ∧ decode .ctrlCmd 0b00100000 = some .ctrlReadConfig ∧
  decode .ctrlCmd 0b01100000 = some .ctrlWriteConfig ∧ decode .ctrlCmd 0b11010100 = some .ctrlWriteAux ∧
  decode .auxCmd 0b11110110 = some .auxSetDefaults ∧ decode .auxCmd 0b11110100 = some .auxEnableReporting ∧
  decode .auxResp 0b11111010 = some .auxAck ∧ decode .auxResp 0b11111011 = none ∧
  decode .statusWrite 0b11111101 = some (.statusWriteReady 0xFD) ∧ decode .statusWrite 0b00000010 = none ∧
  decode .statusRead 0b00000011 = some (.statusReadReady 0x03) ∧ decode .statusRead 0b11111110 = none ∧
  decode .statusIrq 0b00100001 = some (.statusIrqData 0x21) ∧ decode .cfg 0b01000111 = some (.cfgIrq12En 0x47) ∧
  decode .pktY 0b10001000 = some (.pktYovf 0x88) ∧ decode .pktX 0b01001000 = some (.pktXovf 0x48) ∧
  decode .pktLeft 0b00001001 = some (.pktLbtnPressed 0x09) ∧ decode .pktLeft 0b00001000 = some (.pktLbtnReleased 0x08) ∧
  decode .pktRight 0b00001010 = some (.pktRbtnPressed 0x0A) ∧ decode .pktRight 0b00001001 = some (.pktRbtnReleased 0x09) ∧
  decode .pktMotion 0b00111000 = some (.pktMove 0x38) ∧ decode .pktMotion 0b11000000 = none

/-- Decode and encode agree: every encoded instruction is read back with every operand bit, whatever the parameters. -/
def Obligations.DecodeOfEncode : Prop :=
  ∀ (c : Params) (i : Instr) (sl : Slot) (b : Byte),
    i.wellFormed c = true → encode i = some (sl, b) → decode sl b = some i

/-- The other direction: what the decoder reads is well-formed, is encoded back to the same place and byte, and is never
a micro-operation (R86: "Micro-operations have no external encoding"). -/
def Obligations.EncodeOfDecode : Prop :=
  ∀ (c : Params) (sl : Slot) (b : Byte) (i : Instr),
    decode sl b = some i → i.wellFormed c = true ∧ encode i = some (sl, b)

/-- No byte in one place spells two rows of the table. -/
def Obligations.EncodedRowsDisjoint : Prop :=
  encodedRows.Pairwise fun r r' => ∀ (sl : Slot) (b : Byte), ¬(r.spelledBy sl b = true ∧ r'.spelledBy sl b = true)

/-- R86: where `INIT_SEQ` and `IRQ_SEQ` hold each micro-operation. The operand values of OUT are those of R141; the byte
0x60 at entry 8 and the port DATA at entry 10 are the spec's own choice (D10, log entry 24). -/
def Obligations.MicroOperationPositions : Prop :=
  (∀ (c : Params) (k : Fin 24),
    (initSeq c k = .waitw ↔ k.val ∈ [0, 2, 7, 9, 11, 13, 17, 19]) ∧
    (initSeq c k = .waitr ↔ k.val ∈ [4, 15, 21]) ∧
    (initSeq c k = .ackloop ↔ k.val ∈ [16, 22]) ∧
    (initSeq c k = .inCfg ↔ k.val = 5) ∧
    (initSeq c k = .cfgOr 0x02 ↔ k.val = 6) ∧
    (initSeq c k = .regirq c.irqLine c.irqDest ↔ k.val = 23) ∧
    (initSeq c k = .out .statusCmd (.imm 0xA8) ↔ k.val = 1) ∧
    (initSeq c k = .out .statusCmd (.imm 0x20) ↔ k.val = 3) ∧
    (initSeq c k = .out .statusCmd (.imm 0x60) ↔ k.val = 8) ∧
    (initSeq c k = .out .data .cfg ↔ k.val = 10) ∧
    (initSeq c k = .out .statusCmd (.imm 0xD4) ↔ k.val ∈ [12, 18]) ∧
    (initSeq c k = .out .data (.imm 0xF6) ↔ k.val = 14) ∧
    (initSeq c k = .out .data (.imm 0xF4) ↔ k.val = 20)) ∧
  (∀ k : Fin 3,
    (irqSeq k = .istat ↔ k.val = 0) ∧ (irqSeq k = .idata ↔ k.val = 1) ∧ (irqSeq k = .decode ↔ k.val = 2))

/-! ### Requests (30_encoding.md R71 to R73, 42_init.md R140, 43_packet.md R160, 60_exceptions.md R214) -/

/-- R140: INIT, offered when idle, is accepted whatever else the state holds (R153), and only `ctl`, `i` and the
requester's list change. The acceptance as a step of its own is the model's choice (log entry 4). -/
def Obligations.InitAccepted : Prop :=
  ∀ s : State, s.refused = false → s.ctl = .idle →
    exec .init s = .next { s with ctl := .init 0, i := 0, requests := s.requests.tail }

/-- R160, R210, R71: IRQ, offered when idle with the line registered, is the interrupt entry, nothing saved, and "the
accepting step is the first step of the operation": entry 0 of `IRQ_SEQ`, the status check (R162), is performed in it, so
that `ctl` is IRQ(1) after it, or IDLE where the wake is spurious. With the line not registered it is refused
(`IRQ_BEFORE_REGISTER`): `refused` is set, and the state after has no step but a reset. The stored reason and the reset
out of a refused state are the model's choice (log entry 7). -/
def Obligations.IrqAccepted : Prop :=
  ∀ s : State, s.refused = false → s.ctl = .idle →
    (s.irqRegistered = true → bitOf (s.readValue .statusCmd) 0 = true →
      exec .irq s = .next { s.didRead .statusCmd with ctl := .irq 1, requests := s.requests.tail }) ∧
    (s.irqRegistered = true → bitOf (s.readValue .statusCmd) 0 = false →
      exec .irq s = .next { s.didRead .statusCmd with ctl := .idle, requests := s.requests.tail }) ∧
    (s.irqRegistered = false →
      ∃ t, exec .irq s = .next t ∧
        t = { s with refused := true, refuseReason := some .irqBeforeRegister, requests := s.requests.tail } ∧
        (s.resetIn.head? ≠ some true → step t = .refused (.refusedState (some .irqBeforeRegister))))

/-- R73, R214: the reserved code, accepted when idle, sets `refused`, and the state after has no further step but
a reset. The stored reason is the model's own field, and the reset out of a refused state its reading (log entry 7). -/
def Obligations.ReservedRequestSetsRefused : Prop :=
  ∀ s : State, s.refused = false → s.ctl = .idle →
    ∃ t, exec .reservedRequest s = .next t ∧
      t = { s with refused := true, refuseReason := some .reservedRequest, requests := s.requests.tail } ∧
      (s.resetIn.head? ≠ some true → step t = .refused (.refusedState (some .reservedRequest)))

/-- R73: code 00 "is no request: the block stays IDLE and emits nothing"; nothing of the block changes. -/
def Obligations.NoRequestStaysIdle : Prop :=
  ∀ s : State, s.refused = false → s.ctl = .idle →
    exec .nopRequest s = .next { s with requests := s.requests.tail }

/-- R30: a request offered while `ctl ≠ IDLE` is not accepted: no step of a busy block takes anything from the requester,
which holds its request. That exec of a request at a busy block answers the state unchanged is the model's reading (log
entry 17): no step runs it. -/
def Obligations.BusyBlockHoldsRequests : Prop :=
  ∀ s : State, s.refused = false → s.ctl ≠ .idle →
    (∀ i, i = .init ∨ i = .irq ∨ i = .reservedRequest ∨ i = .nopRequest → exec i s = .next s) ∧
    (∀ t, step s = .next t → t.requests = s.requests)

/-- R214: "After that, the state has no further step": no step while the reset input is low, and no instruction. The
stored reason is the model's own field, and the reset out of a refused state its reading (log entry 7). -/
def Obligations.RefusedStateHasNoStep : Prop :=
  ∀ (s : State) (i : Instr), s.refused = true →
    (s.resetIn.head? ≠ some true → step s = .refused (.refusedState s.refuseReason)) ∧ ∀ t, exec i s ≠ .next t

/-! ### The primitives -/

/-- R56, R57, 00_scope.md R18: a port read returns the byte the environment gives (its script's next, or a free value),
appends exactly one label, and changes no register of the block. The free value is not constrained. The script and the
counter of draws are the model's own fields (log entry 2). -/
def Obligations.PortReadFrame : Prop :=
  ∀ (s : State) (p : Port),
    (∃ si di n, s.didRead p =
      { s with statusIn := si, dataIn := di, draws := n, trace := s.trace ++ [.read p (s.readValue p)] }) ∧
    (∀ b rest, s.statusIn = b :: rest →
      s.readValue .statusCmd = b ∧ (s.didRead .statusCmd).statusIn = rest ∧ (s.didRead .statusCmd).dataIn = s.dataIn) ∧
    (∀ b rest, s.dataIn = b :: rest →
      s.readValue .data = b ∧ (s.didRead .data).dataIn = rest ∧ (s.didRead .data).statusIn = s.statusIn)

/-- R83: `sext_8` is the byte read as two's complement, in the range -128..127; 0x0A gives 10 and 0xF6 gives -10. -/
def Obligations.MotionDeltaIsTwosComplement : Prop :=
  (∀ b : Byte, sext8 b = b.toInt ∧ -128 ≤ sext8 b ∧ sext8 b ≤ 127) ∧ sext8 0x0A = 10 ∧ sext8 0xF6 = -10

/-! ### Wait/Poll (40_poll.md) -/

/-- R101: one step of WAITW at each of its entries, for every status byte: ready on bit 1 clear, timeout on the
POLL_BOUND-th failed read, else one more read. Everything not named is unchanged. The exact count is the spec's own
choice (D8, log entry 14). -/
def Obligations.WaitwStep : Prop :=
  ∀ (s : State) (k k' : Fin 24), s.refused = false → s.ctl = .init k → k.val ∈ [0, 2, 7, 9, 11, 13, 17, 19] →
    k'.val = k.val + 1 →
    (bitOf (s.readValue .statusCmd) 1 = false →
      exec .waitw s = .next { s.didRead .statusCmd with i := 0, ctl := .init k' }) ∧
    (bitOf (s.readValue .statusCmd) 1 = true → s.i + 1 = s.params.pollBound →
      exec .waitw s = .next { s.didRead .statusCmd with
        i := 0, ctl := .init k'
        trace := s.trace ++ [.read .statusCmd (s.readValue .statusCmd), .ev (.pollTimeout .write)] }) ∧
    (bitOf (s.readValue .statusCmd) 1 = true → s.i + 1 ≠ s.params.pollBound →
      exec .waitw s = .next { s.didRead .statusCmd with i := s.i + 1 })

/-- R103: one step of WAITR at each of its entries, for every status byte: ready on bit 0 set, timeout on the
POLL_BOUND-th failed read, else one more read. The exact count is the spec's own choice (D8, log entry 14). -/
def Obligations.WaitrStep : Prop :=
  ∀ (s : State) (k k' : Fin 24), s.refused = false → s.ctl = .init k → k.val ∈ [4, 15, 21] →
    k'.val = k.val + 1 →
    (bitOf (s.readValue .statusCmd) 0 = true →
      exec .waitr s = .next { s.didRead .statusCmd with i := 0, ctl := .init k' }) ∧
    (bitOf (s.readValue .statusCmd) 0 = false → s.i + 1 = s.params.pollBound →
      exec .waitr s = .next { s.didRead .statusCmd with
        i := 0, ctl := .init k'
        trace := s.trace ++ [.read .statusCmd (s.readValue .statusCmd), .ev (.pollTimeout .read)] }) ∧
    (bitOf (s.readValue .statusCmd) 0 = false → s.i + 1 ≠ s.params.pollBound →
      exec .waitr s = .next { s.didRead .statusCmd with i := s.i + 1 })

/-- R78: a status byte is write-ready by `(status & 0x02) == 0x00` and read-ready by `(status & 0x01) == 0x01`. Each
encoded status row, where its test asks and the byte read is that byte, completes as its micro-operation does (a row as
a branch of its micro-operation is the model's reading, log entry 10). -/
def Obligations.StatusRowsComplete : Prop :=
  ∀ (s : State) (k k' : Fin 24) (b : Byte), s.refused = false → s.readValue .statusCmd = b → k'.val = k.val + 1 →
    (s.ctl = .init k → initSeq s.params k = .waitw → b &&& 0x02 = 0x00 →
      exec (.statusWriteReady b) s = .next { s.didRead .statusCmd with i := 0, ctl := .init k' } ∧
      exec (.statusWriteReady b) s = exec .waitw s) ∧
    (s.ctl = .init k → initSeq s.params k = .waitr → b &&& 0x01 = 0x01 →
      exec (.statusReadReady b) s = .next { s.didRead .statusCmd with i := 0, ctl := .init k' } ∧
      exec (.statusReadReady b) s = exec .waitr s) ∧
    (s.ctl = .irq 0 → b &&& 0x01 = 0x01 →
      exec (.statusIrqData b) s = .next { s.didRead .statusCmd with ctl := .irq 1 } ∧
      exec (.statusIrqData b) s = exec .istat s)

/-- R104: every WAITW and WAITR ends within POLL_BOUND reads, makes no transaction but its status reads, emits at most
its own timeout, and leaves `i` at 0; whatever the environment returns. The exact bound is the spec's own choice (D8, log
entry 14). -/
def Obligations.PollEndsWithinBound : Prop :=
  ∀ (s : State) (k k' : Fin 24) (kind : PollKind), s.refused = false → true ∉ s.resetIn → s.ctl = .init k →
    (initSeq s.params k = .waitw ∧ kind = .write ∨ initSeq s.params k = .waitr ∧ kind = .read) →
    s.i < s.params.pollBound → k'.val = k.val + 1 →
    ∃ (n : Nat) (vs : List Byte) (t : State), 1 ≤ n ∧ n ≤ s.params.pollBound - s.i ∧ run n s = .next t ∧
      vs.length = n ∧ t.ctl = .init k' ∧ t.i = 0 ∧
      (t.trace = s.trace ++ vs.map (Label.read .statusCmd) ∨
        t.trace = s.trace ++ vs.map (Label.read .statusCmd) ++ [.ev (.pollTimeout kind)])

/-- R100, R102: a status that never meets the condition gives exactly POLL_BOUND reads and then the timeout event, after
which the sequence goes on; nothing else of the state changes. The exact count is the spec's own choice (D8, log entry
14). -/
def Obligations.PollTimesOutAfterExactlyBound : Prop :=
  ∀ (s : State) (k k' : Fin 24) (vs rest : List Byte), s.refused = false → s.resetIn = [] → s.ctl = .init k →
    s.i = 0 → 1 ≤ s.params.pollBound → vs.length = s.params.pollBound → s.statusIn = vs ++ rest →
    k'.val = k.val + 1 →
    (initSeq s.params k = .waitw → (∀ v ∈ vs, bitOf v 1 = true) →
      run s.params.pollBound s = .next { s with
        statusIn := rest, ctl := .init k'
        trace := s.trace ++ vs.map (Label.read .statusCmd) ++ [.ev (.pollTimeout .write)] }) ∧
    (initSeq s.params k = .waitr → (∀ v ∈ vs, bitOf v 0 = false) →
      run s.params.pollBound s = .next { s with
        statusIn := rest, ctl := .init k'
        trace := s.trace ++ vs.map (Label.read .statusCmd) ++ [.ev (.pollTimeout .read)] })

/-! ### Command protocol (41_command.md) -/

/-- R122: one step of ACKLOOP, for every data byte and every ACK_BOUND. The operand of `ACK_TIMEOUT` is that of the
enclosing SEND: 0xF6 at entry 16, 0xF4 at entry 22. That a step is one DATA read with no status read is the spec's own
choice (D26, log entry 27). -/
def Obligations.AckloopStep : Prop :=
  ∀ (s : State) (k k' : Fin 24) (c : Byte), s.refused = false → s.ctl = .init k →
    (k.val = 16 ∧ c = 0xF6 ∨ k.val = 22 ∧ c = 0xF4) → k'.val = k.val + 1 →
    (s.readValue .data = 0xFA → exec .ackloop s = .next { s.didRead .data with i := 0, ctl := .init k' }) ∧
    (s.readValue .data ≠ 0xFA → s.params.ackBound = none → exec .ackloop s = .next (s.didRead .data)) ∧
    (∀ n, s.readValue .data ≠ 0xFA → s.params.ackBound = some n → s.i + 1 = n →
      exec .ackloop s = .next { s.didRead .data with
        i := 0, ctl := .init k'
        trace := s.trace ++ [.read .data (s.readValue .data), .ev (.ackTimeout c)] }) ∧
    (∀ n, s.readValue .data ≠ 0xFA → s.params.ackBound = some n → s.i + 1 ≠ n →
      exec .ackloop s = .next { s.didRead .data with i := s.i + 1 })

/-- R77: the acknowledge byte 0xFA read by ACKLOOP ends the loop, as ACKLOOP's step does (a row as a branch of its
micro-operation is the model's reading, log entry 10). -/
def Obligations.AckByteEndsLoop : Prop :=
  ∀ (s : State) (k k' : Fin 24), s.refused = false → s.ctl = .init k → initSeq s.params k = .ackloop →
    s.readValue .data = 0xFA → k'.val = k.val + 1 →
    exec .auxAck s = .next { s.didRead .data with i := 0, ctl := .init k' } ∧ exec .auxAck s = exec .ackloop s

/-- R120, R88: `SEND c` is its six micro-operations at its six entries, for c = 0xF6 and c = 0xF4, and every step of it
completes. That exec of SEND is one step of its expansion is the model's reading (log entry 9). -/
def Obligations.SendIsItsExpansion : Prop :=
  ∀ (s : State) (k : Fin 24) (c : Byte) (j : Nat), s.refused = false → s.ctl = .init k → j < 6 →
    (c = 0xF6 ∧ k.val = 11 + j ∨ c = 0xF4 ∧ k.val = 17 + j) →
    ∃ m t, [Instr.waitw, .out .statusCmd (.imm 0xD4), .waitw, .out .data (.imm c), .waitr, .ackloop][j]? = some m ∧
      initSeq s.params k = m ∧ exec m s = .next t ∧ exec (.send c) s = .next t

/-- R203: with ACK_BOUND = NONE a mouse that never acknowledges keeps the block at its ACKLOOP, one DATA read per step,
for as many steps as there are such bytes. That no status is read in between is the spec's own choice (D26, log entry
27). -/
def Obligations.AckloopHangsWithoutAcknowledge : Prop :=
  ∀ (s : State) (k : Fin 24) (vs rest : List Byte), s.refused = false → s.resetIn = [] →
    s.params.ackBound = none → s.ctl = .init k → initSeq s.params k = .ackloop →
    s.dataIn = vs ++ rest → (∀ v ∈ vs, v ≠ 0xFA) →
    run vs.length s = .next { s with dataIn := rest, trace := s.trace ++ vs.map (Label.read .data) }

/-- R123: with ACK_BOUND = n, n non-0xFA reads in a row emit `ACK_TIMEOUT(c)` and INIT continues. That no status
is read in between is the spec's own choice (D26, log entry 27). -/
def Obligations.BoundedAckloopTimesOut : Prop :=
  ∀ (s : State) (k k' : Fin 24) (c : Byte) (n : Nat) (vs rest : List Byte), s.refused = false → s.resetIn = [] →
    s.params.ackBound = some n → 1 ≤ n → s.ctl = .init k → (k.val = 16 ∧ c = 0xF6 ∨ k.val = 22 ∧ c = 0xF4) →
    s.i = 0 → vs.length = n → s.dataIn = vs ++ rest → (∀ v ∈ vs, v ≠ 0xFA) → k'.val = k.val + 1 →
    run n s = .next { s with
      dataIn := rest, ctl := .init k'
      trace := s.trace ++ vs.map (Label.read .data) ++ [.ev (.ackTimeout c)] }

/-! ### Initialization (42_init.md) -/

/-- R141, R142: `OUT p, v` at each of its eight entries: one port write of the immediate (or, at entry 10, of the current
`cfg`), `ctl` to the next entry, and nothing else. The byte 0x60 at entry 8 and the port DATA at entry 10 are the spec's
own choice (D10, log entry 24). -/
def Obligations.OutWritesOnePort : Prop :=
  ∀ (s : State) (k k' : Fin 24), s.refused = false → s.ctl = .init k → k'.val = k.val + 1 →
    (∀ p v, (k.val, p, v) ∈ [(1, Port.statusCmd, (0xA8 : Byte)), (3, .statusCmd, 0x20), (8, .statusCmd, 0x60),
        (12, .statusCmd, 0xD4), (14, .data, 0xF6), (18, .statusCmd, 0xD4), (20, .data, 0xF4)] →
      exec (.out p (.imm v)) s = .next { s with ctl := .init k', trace := s.trace ++ [.write p v] }) ∧
    (k.val = 10 →
      exec (.out .data .cfg) s = .next { s with ctl := .init k', trace := s.trace ++ [.write .data s.cfg] })

/-- R75: the four controller command bytes, each written to STATUS_CMD at its entries of `INIT_SEQ`. That exec of such a
row is the OUT step that writes the byte is the model's choice (log entry 10), and the byte 0x60 the spec's own (D10, log
entry 24). -/
def Obligations.ControllerCommandsWritten : Prop :=
  ∀ (s : State) (k k' : Fin 24), s.refused = false → s.ctl = .init k → k'.val = k.val + 1 →
    (k.val = 1 → exec .ctrlEnableAux s =
      .next { s with ctl := .init k', trace := s.trace ++ [.write .statusCmd 0xA8] }) ∧
    (k.val = 3 → exec .ctrlReadConfig s =
      .next { s with ctl := .init k', trace := s.trace ++ [.write .statusCmd 0x20] }) ∧
    (k.val = 8 → exec .ctrlWriteConfig s =
      .next { s with ctl := .init k', trace := s.trace ++ [.write .statusCmd 0x60] }) ∧
    (k.val = 12 ∨ k.val = 18 → exec .ctrlWriteAux s =
      .next { s with ctl := .init k', trace := s.trace ++ [.write .statusCmd 0xD4] })

/-- R76: the two mouse command bytes, each written to DATA at its entry of `INIT_SEQ`. That exec of such a row is the OUT
step that writes the byte is the model's choice (log entry 10). -/
def Obligations.MouseCommandsWritten : Prop :=
  ∀ (s : State) (k k' : Fin 24), s.refused = false → s.ctl = .init k → k'.val = k.val + 1 →
    (k.val = 14 → exec .auxSetDefaults s =
      .next { s with ctl := .init k', trace := s.trace ++ [.write .data 0xF6] }) ∧
    (k.val = 20 → exec .auxEnableReporting s =
      .next { s with ctl := .init k', trace := s.trace ++ [.write .data 0xF4] })

/-- R143: `IN DATA -> cfg` takes any of the 256 values as the configuration byte. -/
def Obligations.InReadsConfigurationByte : Prop :=
  ∀ s : State, s.refused = false → s.ctl = .init 5 →
    exec .inCfg s = .next { s.didRead .data with cfg := s.readValue .data, ctl := .init 6 }

/-- R144: `CFG_OR 0x02` sets bit 1 of `cfg`, changes no other bit, makes no port transaction and emits no label. -/
def Obligations.CfgOrSetsOnlyIrq12Enable : Prop :=
  ∀ s : State, s.refused = false → s.ctl = .init 6 →
    ∃ b : Byte, exec (.cfgOr 0x02) s = .next { s with cfg := b, ctl := .init 7 } ∧
      bitOf b 1 = true ∧ ∀ n, n ≠ 1 → bitOf b n = bitOf s.cfg n

/-- R79, R84: the row CFG_IRQ12_EN names the byte that CFG_OR leaves in `cfg`, and completes as CFG_OR does (a row as a
branch of its micro-operation is the model's reading, log entry 10). -/
def Obligations.CfgRowCompletesAsCfgOr : Prop :=
  ∀ s : State, s.refused = false → s.ctl = .init 6 →
    exec (.cfgIrq12En (s.cfg ||| 0x02)) s = .next { s with cfg := s.cfg ||| 0x02, ctl := .init 7 } ∧
      exec (.cfgIrq12En (s.cfg ||| 0x02)) s = exec (.cfgOr 0x02) s

/-- R150: `REGIRQ` emits `IRQ_REGISTER(IRQ_LINE, IRQ_DEST)`, sets `irqRegistered` and ends INIT; with the hardware's
parameters the arguments are 12 and 0, the spec's own decision (D12, log entry 24). -/
def Obligations.RegirqRegistersTheLine : Prop :=
  (∀ s : State, s.refused = false → s.ctl = .init 23 →
    exec (.regirq s.params.irqLine s.params.irqDest) s = .next { s with
      irqRegistered := true, ctl := .idle
      trace := s.trace ++ [.ev (.irqRegister s.params.irqLine s.params.irqDest)] }) ∧
  Params.hardware.irqLine = 12 ∧ Params.hardware.irqDest = 0

/-- R151: INIT leaves the assembler alone: no step of INIT changes `buf`, `cnt`, `leftPressed` or `rightPressed`. The
reset input, which is no step of INIT, is low. -/
def Obligations.InitLeavesAssemblerAlone : Prop :=
  ∀ s t : State, s.ctl.isInit = true → s.resetIn.head? ≠ some true → step s = .next t →
    t.buf = s.buf ∧ t.cnt = s.cnt ∧ t.leftPressed = s.leftPressed ∧ t.rightPressed = s.rightPressed

/-- R154: the ideal run of INIT, from any idle state, for any configuration byte b: 25 steps (the acceptance and one step
per entry), exactly these 23 labels, and nothing else of the state changes but `cfg`, `irqRegistered` and `i`. That the
acceptance is a step of its own is the model's choice (log entry 4); the byte 0x60 and the port of the byte written back
are the spec's own (D10, log entry 24). -/
def Obligations.IdealInitRun : Prop :=
  ∀ (s : State) (b : Byte) (rest rest' : List Byte), s.refused = false → s.resetIn = [] → s.ctl = .idle →
    s.requests.head? = some ⟨true, 1⟩ →
    s.statusIn = [0x00, 0x00, 0x01, 0x00, 0x00, 0x00, 0x00, 0x01, 0x00, 0x00, 0x01] ++ rest →
    s.dataIn = [b, 0xFA, 0xFA] ++ rest' →
    run 25 s = .next { s with
      i := 0, cfg := b ||| 0x02, irqRegistered := true
      requests := s.requests.tail, statusIn := rest, dataIn := rest'
      trace := s.trace ++
        [.read .statusCmd 0x00, .write .statusCmd 0xA8,
         .read .statusCmd 0x00, .write .statusCmd 0x20, .read .statusCmd 0x01, .read .data b,
         .read .statusCmd 0x00, .write .statusCmd 0x60, .read .statusCmd 0x00, .write .data (b ||| 0x02),
         .read .statusCmd 0x00, .write .statusCmd 0xD4, .read .statusCmd 0x00, .write .data 0xF6,
         .read .statusCmd 0x01, .read .data 0xFA,
         .read .statusCmd 0x00, .write .statusCmd 0xD4, .read .statusCmd 0x00, .write .data 0xF4,
         .read .statusCmd 0x01, .read .data 0xFA,
         .ev (.irqRegister s.params.irqLine s.params.irqDest)] }

/-- R204: with a bounded acknowledge loop every INIT ends, from any of its entries and whatever the environment returns,
and it ends with the line registered. The premise on `i` is the invariant of `StepKeepsInvariant` (R28). -/
def Obligations.BoundedInitEnds : Prop :=
  ∀ (s : State) (k : Fin 24) (n : Nat), s.Inv → s.refused = false → true ∉ s.resetIn → s.ctl = .init k →
    s.params.ackBound = some n →
    ∃ (m : Nat) (t : State), run m s = .next t ∧ t.ctl = .idle ∧ t.irqRegistered = true ∧ t.refused = false

/-! ### Packet assembler and decoder (43_packet.md) -/

/-- R162: ISTAT makes one status read; bit 0 clear is a spurious wake that changes no register. -/
def Obligations.IstatChecksStatus : Prop :=
  ∀ s : State, s.refused = false → s.ctl = .irq 0 →
    (bitOf (s.readValue .statusCmd) 0 = true → exec .istat s = .next { s.didRead .statusCmd with ctl := .irq 1 }) ∧
    (bitOf (s.readValue .statusCmd) 0 = false → exec .istat s = .next { s.didRead .statusCmd with ctl := .idle })

/-- R163, R164: IDATA stores the byte read at `buf[cnt]`, whatever its value, and steps the counter. That `cnt` is 0
already before DECODE is the spec's own choice (D27, log entry 27). -/
def Obligations.IdataStoresAndCounts : Prop :=
  ∀ s : State, s.refused = false → s.ctl = .irq 1 →
    (s.cnt = 0 → exec .idata s = .next { s.didRead .data with
      buf := ⟨s.readValue .data, s.buf.b1, s.buf.b2⟩, cnt := 1, ctl := .idle }) ∧
    (s.cnt = 1 → exec .idata s = .next { s.didRead .data with
      buf := ⟨s.buf.b0, s.readValue .data, s.buf.b2⟩, cnt := 2, ctl := .idle }) ∧
    (s.cnt = 2 → exec .idata s = .next { s.didRead .data with
      buf := ⟨s.buf.b0, s.buf.b1, s.readValue .data⟩, cnt := 0, ctl := .irq 2 })

/-- R170 to R176, R208: DECODE in its four exclusive cases, in terms of the bits of packet byte 0 and the stored flags.
That the right button is bit 1 is the spec's own general knowledge (G2, D11, log entry 12).
Everything not named is unchanged. -/
def Obligations.DecodeDispatchesOneEvent : Prop :=
  ∀ s : State, s.refused = false → s.ctl = .irq 2 →
    (bitOf s.buf.b0 7 = true ∨ bitOf s.buf.b0 6 = true →
      exec .decode s = .next { s with ctl := .idle }) ∧
    (bitOf s.buf.b0 7 = false → bitOf s.buf.b0 6 = false →
      (bitOf s.buf.b0 0 = false → s.leftPressed = true →
        exec .decode s = .next { s with
          leftPressed := false, ctl := .idle, trace := s.trace ++ [.ev .leftClick] }) ∧
      (bitOf s.buf.b0 0 = true ∨ s.leftPressed = false → bitOf s.buf.b0 1 = false → s.rightPressed = true →
        exec .decode s = .next { s with
          leftPressed := bitOf s.buf.b0 0, rightPressed := false, ctl := .idle
          trace := s.trace ++ [.ev .rightClick] }) ∧
      (bitOf s.buf.b0 0 = true ∨ s.leftPressed = false → bitOf s.buf.b0 1 = true ∨ s.rightPressed = false →
        exec .decode s = .next { s with
          leftPressed := bitOf s.buf.b0 0, rightPressed := bitOf s.buf.b0 1, ctl := .idle
          trace := s.trace ++ [.ev (.move s.buf.b1.toInt s.buf.b2.toInt)] }))

/-- The seven rows of `pkt_status8` are the branches of DECODE (R171 to R176): where DECODE is selected and packet byte 0
meets the row's mask (and, for the right-button and motion rows, the earlier release edges did not fire), the row
completes exactly as DECODE does (a row as a branch of DECODE is the model's reading, log entry 10; the right button's bit
is the spec's own general knowledge, log entry 12). -/
def Obligations.PacketRowsAreDecodeBranches : Prop :=
  ∀ (s : State) (b : Byte), s.refused = false → s.ctl = .irq 2 → s.buf.b0 = b →
    ∃ t, exec .decode s = .next t ∧
      (b &&& 0x80 = 0x80 → exec (.pktYovf b) s = .next t) ∧
      (b &&& 0x40 = 0x40 → exec (.pktXovf b) s = .next t) ∧
      (b &&& 0xC1 = 0x01 → exec (.pktLbtnPressed b) s = .next t) ∧
      (b &&& 0xC1 = 0x00 → exec (.pktLbtnReleased b) s = .next t) ∧
      (b &&& 0xC2 = 0x02 → (bitOf b 0 = true ∨ s.leftPressed = false) → exec (.pktRbtnPressed b) s = .next t) ∧
      (b &&& 0xC2 = 0x00 → (bitOf b 0 = true ∨ s.leftPressed = false) → exec (.pktRbtnReleased b) s = .next t) ∧
      (b &&& 0xC0 = 0x00 → (bitOf b 0 = true ∨ s.leftPressed = false) →
        (bitOf b 1 = true ∨ s.rightPressed = false) → exec (.pktMove b) s = .next t)

/-- R85, R177: bits 2 to 5 of packet byte 0 never matter: two packets that agree on bits 0, 1, 6 and 7 are decoded to
states that differ in that byte alone. That the right button is none of them rests on log entry 12. -/
def Obligations.DecodeIgnoresBitsTwoToFive : Prop :=
  ∀ (s t : State) (b b' : Byte), b &&& 0xC3 = b' &&& 0xC3 →
    exec .decode { s with buf := { s.buf with b0 := b } } = .next t →
    exec .decode { s with buf := { s.buf with b0 := b' } } = .next { t with buf := { t.buf with b0 := b' } }

/-- R85: "In status8, bits 2 to 7 are ignored": two status bytes that agree on bits 0 and 1 lead WAITW, WAITR, ISTAT and
the accepting step of an IRQ to states that differ in the byte of one read label alone: every label after it (an event
among them) and every register are the same. -/
def Obligations.StatusBitsTwoToSevenIgnored : Prop :=
  ∀ (s t : State) (b b' : Byte) (rest : List Byte) (i : Instr), b &&& 0x03 = b' &&& 0x03 →
    i = .waitw ∨ i = .waitr ∨ i = .istat ∨ (i = .irq ∧ s.ctl = .idle ∧ s.irqRegistered = true) →
    exec i { s with statusIn := b :: rest } = .next t →
    ∃ t' after, exec i { s with statusIn := b' :: rest } = .next t' ∧
      t.trace = s.trace ++ .read .statusCmd b :: after ∧ t'.trace = s.trace ++ .read .statusCmd b' :: after ∧
      { t' with trace := t.trace } = t

/-- R178, R161: the steps of IRQ write no port, emit no event before DECODE, and DECODE emits at most one event, which is
MOVE, LEFT_CLICK or RIGHT_CLICK; it emits none exactly when an overflow bit is set. The first step, from the acceptance
(R71) or from IRQ(0), reads the status, the second the data. -/
def Obligations.IrqEventsAreClicksOrMoves : Prop :=
  ∀ s t : State, s.resetIn.head? ≠ some true → step s = .next t →
    ((s.ctl = .idle ∧ s.refused = false ∧ s.irqRegistered = true ∧ s.requests.head? = some ⟨true, 2⟩) ∨ s.ctl = .irq 0 →
      t.trace = s.trace ++ [.read .statusCmd (s.readValue .statusCmd)]) ∧
    (s.ctl = .irq 1 → t.trace = s.trace ++ [.read .data (s.readValue .data)]) ∧
    (s.ctl = .irq 2 →
      (bitOf s.buf.b0 7 = true ∨ bitOf s.buf.b0 6 = true → t.trace = s.trace) ∧
      (bitOf s.buf.b0 7 = false → bitOf s.buf.b0 6 = false →
        ∃ e, t.trace = s.trace ++ [.ev e] ∧ (e = .leftClick ∨ e = .rightClick ∨ ∃ dx dy, e = .move dx dy)))

/-- R161, R204: an IRQ, from the step that accepts it (R71) or from IRQ(0), ends at IDLE after exactly 1 step (spurious), 2
steps (byte stored, packet incomplete) or 3 steps (byte stored and packet decoded), whatever the environment returns, and
is not idle before. -/
def Obligations.IrqEndsWithinThreeSteps : Prop :=
  ∀ s : State, s.refused = false → true ∉ s.resetIn →
    (s.ctl = .idle ∧ s.irqRegistered = true ∧ s.requests.head? = some ⟨true, 2⟩) ∨ s.ctl = .irq 0 →
    ∃ n t, run n s = .next t ∧ t.ctl = .idle ∧ t.refused = false ∧ 1 ≤ n ∧ n ≤ 3 ∧
      (bitOf (s.readValue .statusCmd) 0 = false → n = 1) ∧
      (bitOf (s.readValue .statusCmd) 0 = true → s.cnt ≠ 2 → n = 2) ∧
      (bitOf (s.readValue .statusCmd) 0 = true → s.cnt = 2 → n = 3) ∧
      ∀ m u, 1 ≤ m → m < n → run m s = .next u → u.ctl ≠ .idle

/-- R181, E5: N copies of a packet with no overflow bit and bits 0 and 1 clear, decoded with both flags false, emit N
equal MOVE events and no other event, and leave both flags false and the counter at 0. Seven steps a packet: three
acceptances with their ISTAT (R71), three IDATA and one DECODE. That the right button is bit 1 is the spec's own general
knowledge (G2, D11, log entry 12, PRESUMED). -/
def Obligations.RepeatedPacketRepeatsMove : Prop :=
  ∀ (n : Nat) (s : State) (b0 b1 b2 : Byte) (q : List Request) (rest rest' : List Byte),
    s.refused = false → s.resetIn = [] → s.irqRegistered = true → s.ctl = .idle → s.cnt = 0 →
    s.leftPressed = false → s.rightPressed = false → b0 &&& 0xC3 = 0x00 →
    s.requests = List.replicate (3 * n) ⟨true, 2⟩ ++ q →
    s.statusIn = List.replicate (3 * n) 0x01 ++ rest →
    s.dataIn = (List.replicate n [b0, b1, b2]).flatten ++ rest' →
    ∃ t, run (7 * n) s = .next t ∧ t.ctl = .idle ∧ t.cnt = 0 ∧ t.leftPressed = false ∧ t.rightPressed = false ∧
      t.requests = q ∧ t.statusIn = rest ∧ t.dataIn = rest' ∧
      t.trace.filter (fun l => !l.isPort) =
        s.trace.filter (fun l => !l.isPort) ++ List.replicate n (.ev (.move b1.toInt b2.toInt))

/-! ### The machine -/

/-- A step that is neither refused nor a reset runs the selected instruction: the request that the interface spells when
idle, else the entry of the fixed sequence that `ctl` names. One level of the reset input, the model's own field (log
entry 6), is taken. -/
def Obligations.StepRunsSelectedInstruction : Prop :=
  ∀ s : State, s.refused = false → s.resetIn.head? ≠ some true →
    (∀ op rest i, s.ctl = .idle → s.requests = ⟨true, op⟩ :: rest → decode .request (op.setWidth 8) = some i →
      step s = exec i { s with resetIn := s.resetIn.tail }) ∧
    (∀ op rest, s.ctl = .idle → s.requests = ⟨false, op⟩ :: rest →
      step s = exec .nopRequest { s with resetIn := s.resetIn.tail }) ∧
    (s.ctl = .idle → s.requests = [] → step s = exec .nopRequest { s with resetIn := s.resetIn.tail }) ∧
    (∀ k, s.ctl = .init k → step s = exec (initSeq s.params k) { s with resetIn := s.resetIn.tail }) ∧
    (∀ k, s.ctl = .irq k → step s = exec (irqSeq k) { s with resetIn := s.resetIn.tail })

/-- A step never faults: what it runs is what the state selects (R86). The fault is the model's own (log entry 8). -/
def Obligations.StepNeverFaults : Prop := ∀ (s : State) (r : Fault), step s ≠ .fault r

/-- R86: "Each is selected only by its position in a fixed sequence": every instruction but a request stops with the
model's own fault (log entry 8) where the state does not select it: a micro-operation that `ctl` does not name, SEND
outside its entries, a byte that is not written, read or held there (log entries 9 and 10), and at IDLE each of them. A
request never stops so: a busy block holds it. The right button's bit is the spec's general knowledge (log entry 12). -/
def Obligations.UnselectedInstructionStops : Prop :=
  ∀ (s : State) (i : Instr) (b : Byte), s.refused = false →
    (i = .waitw ∨ i = .waitr ∨ i = .ackloop ∨ (∃ p v, i = .out p v) ∨ i = .inCfg ∨ i = .cfgOr b ∨
        (∃ line dest, i = .regirq line dest) ∨ i = .istat ∨ i = .idata ∨ i = .decode →
      s.microOp ≠ some i → exec i s = .fault .notSelected) ∧
    ((∀ k : Fin 24, s.ctl = .init k →
        ¬(b = 0xF6 ∧ 11 ≤ k.val ∧ k.val ≤ 16) ∧ ¬(b = 0xF4 ∧ 17 ≤ k.val ∧ k.val ≤ 22)) →
      exec (.send b) s = .fault .notSelected) ∧
    (s.ctl ≠ .init 1 → exec .ctrlEnableAux s = .fault .notSelected) ∧
    (s.ctl ≠ .init 3 → exec .ctrlReadConfig s = .fault .notSelected) ∧
    (s.ctl ≠ .init 8 → exec .ctrlWriteConfig s = .fault .notSelected) ∧
    (s.ctl ≠ .init 12 → s.ctl ≠ .init 18 → exec .ctrlWriteAux s = .fault .notSelected) ∧
    (s.ctl ≠ .init 14 → exec .auxSetDefaults s = .fault .notSelected) ∧
    (s.ctl ≠ .init 20 → exec .auxEnableReporting s = .fault .notSelected) ∧
    (s.microOp ≠ some .ackloop ∨ s.readValue .data ≠ 0xFA → exec .auxAck s = .fault .notSelected) ∧
    (s.microOp ≠ some .waitw ∨ s.readValue .statusCmd ≠ b ∨ bitOf b 1 = true →
      exec (.statusWriteReady b) s = .fault .notSelected) ∧
    (s.microOp ≠ some .waitr ∨ s.readValue .statusCmd ≠ b ∨ bitOf b 0 = false →
      exec (.statusReadReady b) s = .fault .notSelected) ∧
    (s.ctl ≠ .irq 0 ∨ s.readValue .statusCmd ≠ b ∨ bitOf b 0 = false →
      exec (.statusIrqData b) s = .fault .notSelected) ∧
    (s.ctl ≠ .init 6 ∨ b ≠ s.cfg ||| 0x02 → exec (.cfgIrq12En b) s = .fault .notSelected) ∧
    (s.ctl ≠ .irq 2 ∨ s.buf.b0 ≠ b ∨ bitOf b 7 = false → exec (.pktYovf b) s = .fault .notSelected) ∧
    (s.ctl ≠ .irq 2 ∨ s.buf.b0 ≠ b ∨ bitOf b 6 = false → exec (.pktXovf b) s = .fault .notSelected) ∧
    (s.ctl ≠ .irq 2 ∨ s.buf.b0 ≠ b ∨ b &&& 0xC1 ≠ 0x01 → exec (.pktLbtnPressed b) s = .fault .notSelected) ∧
    (s.ctl ≠ .irq 2 ∨ s.buf.b0 ≠ b ∨ b &&& 0xC1 ≠ 0x00 → exec (.pktLbtnReleased b) s = .fault .notSelected) ∧
    (s.ctl ≠ .irq 2 ∨ s.buf.b0 ≠ b ∨ b &&& 0xC2 ≠ 0x02 ∨ (bitOf b 0 = false ∧ s.leftPressed = true) →
      exec (.pktRbtnPressed b) s = .fault .notSelected) ∧
    (s.ctl ≠ .irq 2 ∨ s.buf.b0 ≠ b ∨ b &&& 0xC2 ≠ 0x00 ∨ (bitOf b 0 = false ∧ s.leftPressed = true) →
      exec (.pktRbtnReleased b) s = .fault .notSelected) ∧
    (s.ctl ≠ .irq 2 ∨ s.buf.b0 ≠ b ∨ b &&& 0xC0 ≠ 0x00 ∨ (bitOf b 0 = false ∧ s.leftPressed = true) ∨
        (bitOf b 1 = false ∧ s.rightPressed = true) →
      exec (.pktMove b) s = .fault .notSelected) ∧
    (i ∉ [.init, .irq, .reservedRequest, .nopRequest] → s.ctl = .idle → exec i s = .fault .notSelected)

/-- R230: reset at any time moves the block to the reset state of R231 whatever it was doing, a refused state among them,
emitting nothing; the inputs still to come and the parameters stay. That R32's "never cleared" does not bar the reset is
the model's reading (log entry 7), the form of the reset input its choice (log entry 6), and the values are the spec's own
decision (D14, log entry 25). -/
def Obligations.ResetFromAnyState : Prop :=
  ∀ s : State, s.resetIn.head? = some true →
    ∃ t, step s = .next t ∧ t.cnt = 0 ∧ t.leftPressed = false ∧ t.rightPressed = false ∧ t.irqRegistered = false ∧
      t.ctl = .idle ∧ t.i = 0 ∧ t.refused = false ∧ t.trace = s.trace ∧ t.params = s.params ∧
      t.requests = s.requests ∧ t.statusIn = s.statusIn ∧ t.dataIn = s.dataIn ∧ t.resetIn = s.resetIn.tail

/-- R231: the values of the reset state that the spec gives, its own decision (D14, log entry 25). `buf` and `cfg` are
unspecified there, and nothing is said of them. -/
def Obligations.ResetStateValues : Prop :=
  State.reset.cnt = 0 ∧ State.reset.leftPressed = false ∧ State.reset.rightPressed = false ∧
    State.reset.irqRegistered = false ∧ State.reset.ctl = .idle ∧ State.reset.i = 0 ∧ State.reset.refused = false

/-- The invariant holds at reset. -/
def Obligations.ResetMeetsInvariant : Prop := State.reset.Inv

/-- The invariant of the reachable states is kept by every step, from every state that meets it: the retry counter below
its bound (R28), an IRQ only with the line registered (R160), the line registered only after its event (R31), the counter
reset before DECODE (R164), IRQ12_EN set in the byte written back (R84), a refused state idle (R214), with its reason
stored (the model's own field, log entry 7). -/
def Obligations.StepKeepsInvariant : Prop := ∀ s t : State, s.Inv → step s = .next t → t.Inv

/-- R9, R19: a step appends its labels to the trace: at most one port transaction, and at most one event after it. -/
def Obligations.StepAddsOneTransactionThenOneEvent : Prop :=
  ∀ s t : State, step s = .next t → ∃ added, t.trace = s.trace ++ added ∧ stepLabels added = true

/-- R75, R76, R85: from every state that meets the invariant, the only bytes among the labels a step adds that are written
are the four controller commands to STATUS_CMD, and to DATA the two mouse commands and the configuration byte `cfg` with
IRQ12_EN set, each at its own entries of `INIT_SEQ` and nowhere else. The byte 0x60 and the port of the configuration byte
are the spec's own choice (D10, log entry 24). -/
def Obligations.OnlyListedBytesWritten : Prop :=
  ∀ (s t : State) (added : List Label) (p : Port) (v : Byte), s.Inv → step s = .next t →
    t.trace = s.trace ++ added → .write p v ∈ added →
    (p = .statusCmd ∧
      (s.ctl = .init 1 ∧ v = 0xA8 ∨ s.ctl = .init 3 ∧ v = 0x20 ∨ s.ctl = .init 8 ∧ v = 0x60 ∨
        (s.ctl = .init 12 ∨ s.ctl = .init 18) ∧ v = 0xD4)) ∨
    (p = .data ∧
      (s.ctl = .init 14 ∧ v = 0xF6 ∨ s.ctl = .init 20 ∧ v = 0xF4 ∨
        s.ctl = .init 10 ∧ v = s.cfg ∧ bitOf v 1 = true))

/-- R30, R71: operations do not interleave: a step of INIT leads to INIT or IDLE, a step of IRQ to IRQ or IDLE, and from
IDLE an operation begins only by its acceptance: INIT stands at its entry 0 after it (the acceptance as a step of its own is
the model's choice, log entry 4), IRQ, whose entry 0 is the accepting step, at its entry 1 or at IDLE again. -/
def Obligations.OperationsDoNotInterleave : Prop :=
  ∀ s t : State, step s = .next t →
    (s.ctl.isInit = true → t.ctl.isInit = true ∨ t.ctl = .idle) ∧
    (s.ctl.isIrq = true → t.ctl.isIrq = true ∨ t.ctl = .idle) ∧
    (s.ctl = .idle → t.ctl = .idle ∨ t.ctl = .init 0 ∨ (t.ctl = .irq 1 ∧ s.irqRegistered = true))

/-- R33, R24, R25, R21, R22: over all instructions, the button flags change only where DECODE is selected, and `buf` and
`cnt` only where IDATA is. -/
def Obligations.AssemblerWrittenOnlyByItsRules : Prop :=
  ∀ (i : Instr) (s t : State), exec i s = .next t →
    (t.leftPressed ≠ s.leftPressed ∨ t.rightPressed ≠ s.rightPressed → s.ctl = .irq 2) ∧
    (t.buf ≠ s.buf ∨ t.cnt ≠ s.cnt → s.ctl = .irq 1)

/-- R26, R31, R32, R11: over all instructions, `cfg` changes only at INIT(5) and INIT(6), `irqRegistered` is set only at
INIT(23) and never cleared, `refused` changes only when idle, and the parameters never change. -/
def Obligations.SequencerWrittenOnlyByItsRules : Prop :=
  ∀ (i : Instr) (s t : State), exec i s = .next t →
    (t.cfg ≠ s.cfg → s.ctl = .init 5 ∨ s.ctl = .init 6) ∧
    (t.irqRegistered ≠ s.irqRegistered → s.ctl = .init 23 ∧ t.irqRegistered = true) ∧
    (t.refused ≠ s.refused → s.ctl = .idle) ∧ t.params = s.params ∧ t.resetIn = s.resetIn

/-- 60_exceptions.md R215: a state with `ctl ≠ IDLE` is never final (it has a next state), and a state at rest with
nothing more offered stays as it is. -/
def Obligations.BusyStepsAndRestStays : Prop :=
  ∀ s : State, s.refused = false →
    (s.ctl ≠ .idle → ∃ t, step s = .next t) ∧
    (s.ctl = .idle → s.requests = [] → s.resetIn = [] → step s = .next s)
end

