-- ==== Sys2Proof/Laws/State.lean ====
section
/-! SUPPORT. One lemma per field per update of State, for the named operations of Machine/Ops.lean, Flags.lean and the
status check, store and counter step of Packet.lean. -/

namespace Sys2Proof.Machine.State

variable (s : State)

@[simp] theorem didRead_buf (p : Port) : (s.didRead p).buf = s.buf := by
  cases p <;> simp only [didRead, takeInput] <;> split <;> rfl
@[simp] theorem didRead_cnt (p : Port) : (s.didRead p).cnt = s.cnt := by
  cases p <;> simp only [didRead, takeInput] <;> split <;> rfl
@[simp] theorem didRead_leftPressed (p : Port) : (s.didRead p).leftPressed = s.leftPressed := by
  cases p <;> simp only [didRead, takeInput] <;> split <;> rfl
@[simp] theorem didRead_rightPressed (p : Port) : (s.didRead p).rightPressed = s.rightPressed := by
  cases p <;> simp only [didRead, takeInput] <;> split <;> rfl
@[simp] theorem didRead_cfg (p : Port) : (s.didRead p).cfg = s.cfg := by
  cases p <;> simp only [didRead, takeInput] <;> split <;> rfl
@[simp] theorem didRead_irqRegistered (p : Port) : (s.didRead p).irqRegistered = s.irqRegistered := by
  cases p <;> simp only [didRead, takeInput] <;> split <;> rfl
@[simp] theorem didRead_ctl (p : Port) : (s.didRead p).ctl = s.ctl := by
  cases p <;> simp only [didRead, takeInput] <;> split <;> rfl
@[simp] theorem didRead_i (p : Port) : (s.didRead p).i = s.i := by
  cases p <;> simp only [didRead, takeInput] <;> split <;> rfl
@[simp] theorem didRead_refused (p : Port) : (s.didRead p).refused = s.refused := by
  cases p <;> simp only [didRead, takeInput] <;> split <;> rfl
@[simp] theorem didRead_refuseReason (p : Port) : (s.didRead p).refuseReason = s.refuseReason := by
  cases p <;> simp only [didRead, takeInput] <;> split <;> rfl
@[simp] theorem didRead_params (p : Port) : (s.didRead p).params = s.params := by
  cases p <;> simp only [didRead, takeInput] <;> split <;> rfl
@[simp] theorem didRead_requests (p : Port) : (s.didRead p).requests = s.requests := by
  cases p <;> simp only [didRead, takeInput] <;> split <;> rfl
@[simp] theorem didRead_resetIn (p : Port) : (s.didRead p).resetIn = s.resetIn := by
  cases p <;> simp only [didRead, takeInput] <;> split <;> rfl
@[simp] theorem didRead_trace (p : Port) : (s.didRead p).trace = s.trace ++ [.read p (s.readValue p)] := rfl

@[simp] theorem portWrite_buf (p : Port) (v : Byte) : (s.portWrite p v).buf = s.buf := rfl
@[simp] theorem portWrite_cnt (p : Port) (v : Byte) : (s.portWrite p v).cnt = s.cnt := rfl
@[simp] theorem portWrite_leftPressed (p : Port) (v : Byte) : (s.portWrite p v).leftPressed = s.leftPressed := rfl
@[simp] theorem portWrite_rightPressed (p : Port) (v : Byte) : (s.portWrite p v).rightPressed = s.rightPressed := rfl
@[simp] theorem portWrite_cfg (p : Port) (v : Byte) : (s.portWrite p v).cfg = s.cfg := rfl
@[simp] theorem portWrite_irqRegistered (p : Port) (v : Byte) : (s.portWrite p v).irqRegistered = s.irqRegistered := rfl
@[simp] theorem portWrite_ctl (p : Port) (v : Byte) : (s.portWrite p v).ctl = s.ctl := rfl
@[simp] theorem portWrite_i (p : Port) (v : Byte) : (s.portWrite p v).i = s.i := rfl
@[simp] theorem portWrite_refused (p : Port) (v : Byte) : (s.portWrite p v).refused = s.refused := rfl
@[simp] theorem portWrite_refuseReason (p : Port) (v : Byte) : (s.portWrite p v).refuseReason = s.refuseReason := rfl
@[simp] theorem portWrite_params (p : Port) (v : Byte) : (s.portWrite p v).params = s.params := rfl
@[simp] theorem portWrite_requests (p : Port) (v : Byte) : (s.portWrite p v).requests = s.requests := rfl
@[simp] theorem portWrite_resetIn (p : Port) (v : Byte) : (s.portWrite p v).resetIn = s.resetIn := rfl
@[simp] theorem portWrite_statusIn (p : Port) (v : Byte) : (s.portWrite p v).statusIn = s.statusIn := rfl
@[simp] theorem portWrite_dataIn (p : Port) (v : Byte) : (s.portWrite p v).dataIn = s.dataIn := rfl
@[simp] theorem portWrite_draws (p : Port) (v : Byte) : (s.portWrite p v).draws = s.draws := rfl
@[simp] theorem portWrite_trace (p : Port) (v : Byte) : (s.portWrite p v).trace = s.trace ++ [.write p v] := rfl

@[simp] theorem emit_buf (e : Event) : (s.emit e).buf = s.buf := rfl
@[simp] theorem emit_cnt (e : Event) : (s.emit e).cnt = s.cnt := rfl
@[simp] theorem emit_leftPressed (e : Event) : (s.emit e).leftPressed = s.leftPressed := rfl
@[simp] theorem emit_rightPressed (e : Event) : (s.emit e).rightPressed = s.rightPressed := rfl
@[simp] theorem emit_cfg (e : Event) : (s.emit e).cfg = s.cfg := rfl
@[simp] theorem emit_irqRegistered (e : Event) : (s.emit e).irqRegistered = s.irqRegistered := rfl
@[simp] theorem emit_ctl (e : Event) : (s.emit e).ctl = s.ctl := rfl
@[simp] theorem emit_i (e : Event) : (s.emit e).i = s.i := rfl
@[simp] theorem emit_refused (e : Event) : (s.emit e).refused = s.refused := rfl
@[simp] theorem emit_refuseReason (e : Event) : (s.emit e).refuseReason = s.refuseReason := rfl
@[simp] theorem emit_params (e : Event) : (s.emit e).params = s.params := rfl
@[simp] theorem emit_requests (e : Event) : (s.emit e).requests = s.requests := rfl
@[simp] theorem emit_resetIn (e : Event) : (s.emit e).resetIn = s.resetIn := rfl
@[simp] theorem emit_statusIn (e : Event) : (s.emit e).statusIn = s.statusIn := rfl
@[simp] theorem emit_dataIn (e : Event) : (s.emit e).dataIn = s.dataIn := rfl
@[simp] theorem emit_draws (e : Event) : (s.emit e).draws = s.draws := rfl
@[simp] theorem emit_trace (e : Event) : (s.emit e).trace = s.trace ++ [.ev e] := rfl

@[simp] theorem advance_buf : s.advance.buf = s.buf := rfl
@[simp] theorem advance_cnt : s.advance.cnt = s.cnt := rfl
@[simp] theorem advance_leftPressed : s.advance.leftPressed = s.leftPressed := rfl
@[simp] theorem advance_rightPressed : s.advance.rightPressed = s.rightPressed := rfl
@[simp] theorem advance_cfg : s.advance.cfg = s.cfg := rfl
@[simp] theorem advance_irqRegistered : s.advance.irqRegistered = s.irqRegistered := rfl
@[simp] theorem advance_ctl : s.advance.ctl = s.ctl.next := rfl
@[simp] theorem advance_i : s.advance.i = s.i := rfl
@[simp] theorem advance_refused : s.advance.refused = s.refused := rfl
@[simp] theorem advance_refuseReason : s.advance.refuseReason = s.refuseReason := rfl
@[simp] theorem advance_params : s.advance.params = s.params := rfl
@[simp] theorem advance_requests : s.advance.requests = s.requests := rfl
@[simp] theorem advance_resetIn : s.advance.resetIn = s.resetIn := rfl
@[simp] theorem advance_statusIn : s.advance.statusIn = s.statusIn := rfl
@[simp] theorem advance_dataIn : s.advance.dataIn = s.dataIn := rfl
@[simp] theorem advance_draws : s.advance.draws = s.draws := rfl
@[simp] theorem advance_trace : s.advance.trace = s.trace := rfl

@[simp] theorem endLoop_buf : s.endLoop.buf = s.buf := rfl
@[simp] theorem endLoop_cnt : s.endLoop.cnt = s.cnt := rfl
@[simp] theorem endLoop_leftPressed : s.endLoop.leftPressed = s.leftPressed := rfl
@[simp] theorem endLoop_rightPressed : s.endLoop.rightPressed = s.rightPressed := rfl
@[simp] theorem endLoop_cfg : s.endLoop.cfg = s.cfg := rfl
@[simp] theorem endLoop_irqRegistered : s.endLoop.irqRegistered = s.irqRegistered := rfl
@[simp] theorem endLoop_ctl : s.endLoop.ctl = s.ctl.next := rfl
@[simp] theorem endLoop_i : s.endLoop.i = 0 := rfl
@[simp] theorem endLoop_refused : s.endLoop.refused = s.refused := rfl
@[simp] theorem endLoop_refuseReason : s.endLoop.refuseReason = s.refuseReason := rfl
@[simp] theorem endLoop_params : s.endLoop.params = s.params := rfl
@[simp] theorem endLoop_requests : s.endLoop.requests = s.requests := rfl
@[simp] theorem endLoop_resetIn : s.endLoop.resetIn = s.resetIn := rfl
@[simp] theorem endLoop_statusIn : s.endLoop.statusIn = s.statusIn := rfl
@[simp] theorem endLoop_dataIn : s.endLoop.dataIn = s.dataIn := rfl
@[simp] theorem endLoop_draws : s.endLoop.draws = s.draws := rfl
@[simp] theorem endLoop_trace : s.endLoop.trace = s.trace := rfl

@[simp] theorem countRetry_buf : s.countRetry.buf = s.buf := rfl
@[simp] theorem countRetry_cnt : s.countRetry.cnt = s.cnt := rfl
@[simp] theorem countRetry_leftPressed : s.countRetry.leftPressed = s.leftPressed := rfl
@[simp] theorem countRetry_rightPressed : s.countRetry.rightPressed = s.rightPressed := rfl
@[simp] theorem countRetry_cfg : s.countRetry.cfg = s.cfg := rfl
@[simp] theorem countRetry_irqRegistered : s.countRetry.irqRegistered = s.irqRegistered := rfl
@[simp] theorem countRetry_ctl : s.countRetry.ctl = s.ctl := rfl
@[simp] theorem countRetry_i : s.countRetry.i = s.i + 1 := rfl
@[simp] theorem countRetry_refused : s.countRetry.refused = s.refused := rfl
@[simp] theorem countRetry_refuseReason : s.countRetry.refuseReason = s.refuseReason := rfl
@[simp] theorem countRetry_params : s.countRetry.params = s.params := rfl
@[simp] theorem countRetry_requests : s.countRetry.requests = s.requests := rfl
@[simp] theorem countRetry_resetIn : s.countRetry.resetIn = s.resetIn := rfl
@[simp] theorem countRetry_statusIn : s.countRetry.statusIn = s.statusIn := rfl
@[simp] theorem countRetry_dataIn : s.countRetry.dataIn = s.dataIn := rfl
@[simp] theorem countRetry_draws : s.countRetry.draws = s.draws := rfl
@[simp] theorem countRetry_trace : s.countRetry.trace = s.trace := rfl

@[simp] theorem toIdle_buf : s.toIdle.buf = s.buf := rfl
@[simp] theorem toIdle_cnt : s.toIdle.cnt = s.cnt := rfl
@[simp] theorem toIdle_leftPressed : s.toIdle.leftPressed = s.leftPressed := rfl
@[simp] theorem toIdle_rightPressed : s.toIdle.rightPressed = s.rightPressed := rfl
@[simp] theorem toIdle_cfg : s.toIdle.cfg = s.cfg := rfl
@[simp] theorem toIdle_irqRegistered : s.toIdle.irqRegistered = s.irqRegistered := rfl
@[simp] theorem toIdle_ctl : s.toIdle.ctl = .idle := rfl
@[simp] theorem toIdle_i : s.toIdle.i = s.i := rfl
@[simp] theorem toIdle_refused : s.toIdle.refused = s.refused := rfl
@[simp] theorem toIdle_refuseReason : s.toIdle.refuseReason = s.refuseReason := rfl
@[simp] theorem toIdle_params : s.toIdle.params = s.params := rfl
@[simp] theorem toIdle_requests : s.toIdle.requests = s.requests := rfl
@[simp] theorem toIdle_resetIn : s.toIdle.resetIn = s.resetIn := rfl
@[simp] theorem toIdle_statusIn : s.toIdle.statusIn = s.statusIn := rfl
@[simp] theorem toIdle_dataIn : s.toIdle.dataIn = s.dataIn := rfl
@[simp] theorem toIdle_draws : s.toIdle.draws = s.draws := rfl
@[simp] theorem toIdle_trace : s.toIdle.trace = s.trace := rfl

@[simp] theorem enterIrq_buf : s.enterIrq.buf = s.buf := rfl
@[simp] theorem enterIrq_cnt : s.enterIrq.cnt = s.cnt := rfl
@[simp] theorem enterIrq_leftPressed : s.enterIrq.leftPressed = s.leftPressed := rfl
@[simp] theorem enterIrq_rightPressed : s.enterIrq.rightPressed = s.rightPressed := rfl
@[simp] theorem enterIrq_cfg : s.enterIrq.cfg = s.cfg := rfl
@[simp] theorem enterIrq_irqRegistered : s.enterIrq.irqRegistered = s.irqRegistered := rfl
@[simp] theorem enterIrq_ctl : s.enterIrq.ctl = .irq 0 := rfl
@[simp] theorem enterIrq_i : s.enterIrq.i = s.i := rfl
@[simp] theorem enterIrq_refused : s.enterIrq.refused = s.refused := rfl
@[simp] theorem enterIrq_refuseReason : s.enterIrq.refuseReason = s.refuseReason := rfl
@[simp] theorem enterIrq_params : s.enterIrq.params = s.params := rfl
@[simp] theorem enterIrq_requests : s.enterIrq.requests = s.requests := rfl
@[simp] theorem enterIrq_resetIn : s.enterIrq.resetIn = s.resetIn := rfl
@[simp] theorem enterIrq_statusIn : s.enterIrq.statusIn = s.statusIn := rfl
@[simp] theorem enterIrq_dataIn : s.enterIrq.dataIn = s.dataIn := rfl
@[simp] theorem enterIrq_draws : s.enterIrq.draws = s.draws := rfl
@[simp] theorem enterIrq_trace : s.enterIrq.trace = s.trace := rfl

@[simp] theorem enterInit_buf : s.enterInit.buf = s.buf := rfl
@[simp] theorem enterInit_cnt : s.enterInit.cnt = s.cnt := rfl
@[simp] theorem enterInit_leftPressed : s.enterInit.leftPressed = s.leftPressed := rfl
@[simp] theorem enterInit_rightPressed : s.enterInit.rightPressed = s.rightPressed := rfl
@[simp] theorem enterInit_cfg : s.enterInit.cfg = s.cfg := rfl
@[simp] theorem enterInit_irqRegistered : s.enterInit.irqRegistered = s.irqRegistered := rfl
@[simp] theorem enterInit_ctl : s.enterInit.ctl = .init 0 := rfl
@[simp] theorem enterInit_i : s.enterInit.i = 0 := rfl
@[simp] theorem enterInit_refused : s.enterInit.refused = s.refused := rfl
@[simp] theorem enterInit_refuseReason : s.enterInit.refuseReason = s.refuseReason := rfl
@[simp] theorem enterInit_params : s.enterInit.params = s.params := rfl
@[simp] theorem enterInit_requests : s.enterInit.requests = s.requests := rfl
@[simp] theorem enterInit_resetIn : s.enterInit.resetIn = s.resetIn := rfl
@[simp] theorem enterInit_statusIn : s.enterInit.statusIn = s.statusIn := rfl
@[simp] theorem enterInit_dataIn : s.enterInit.dataIn = s.dataIn := rfl
@[simp] theorem enterInit_draws : s.enterInit.draws = s.draws := rfl
@[simp] theorem enterInit_trace : s.enterInit.trace = s.trace := rfl

@[simp] theorem takeOffer_buf : s.takeOffer.buf = s.buf := rfl
@[simp] theorem takeOffer_cnt : s.takeOffer.cnt = s.cnt := rfl
@[simp] theorem takeOffer_leftPressed : s.takeOffer.leftPressed = s.leftPressed := rfl
@[simp] theorem takeOffer_rightPressed : s.takeOffer.rightPressed = s.rightPressed := rfl
@[simp] theorem takeOffer_cfg : s.takeOffer.cfg = s.cfg := rfl
@[simp] theorem takeOffer_irqRegistered : s.takeOffer.irqRegistered = s.irqRegistered := rfl
@[simp] theorem takeOffer_ctl : s.takeOffer.ctl = s.ctl := rfl
@[simp] theorem takeOffer_i : s.takeOffer.i = s.i := rfl
@[simp] theorem takeOffer_refused : s.takeOffer.refused = s.refused := rfl
@[simp] theorem takeOffer_refuseReason : s.takeOffer.refuseReason = s.refuseReason := rfl
@[simp] theorem takeOffer_params : s.takeOffer.params = s.params := rfl
@[simp] theorem takeOffer_requests : s.takeOffer.requests = s.requests.tail := rfl
@[simp] theorem takeOffer_resetIn : s.takeOffer.resetIn = s.resetIn := rfl
@[simp] theorem takeOffer_statusIn : s.takeOffer.statusIn = s.statusIn := rfl
@[simp] theorem takeOffer_dataIn : s.takeOffer.dataIn = s.dataIn := rfl
@[simp] theorem takeOffer_draws : s.takeOffer.draws = s.draws := rfl
@[simp] theorem takeOffer_trace : s.takeOffer.trace = s.trace := rfl

@[simp] theorem raiseRefuse_buf (r : RefuseReason) : (s.raiseRefuse r).buf = s.buf := rfl
@[simp] theorem raiseRefuse_cnt (r : RefuseReason) : (s.raiseRefuse r).cnt = s.cnt := rfl
@[simp] theorem raiseRefuse_leftPressed (r : RefuseReason) : (s.raiseRefuse r).leftPressed = s.leftPressed := rfl
@[simp] theorem raiseRefuse_rightPressed (r : RefuseReason) : (s.raiseRefuse r).rightPressed = s.rightPressed := rfl
@[simp] theorem raiseRefuse_cfg (r : RefuseReason) : (s.raiseRefuse r).cfg = s.cfg := rfl
@[simp] theorem raiseRefuse_irqRegistered (r : RefuseReason) : (s.raiseRefuse r).irqRegistered = s.irqRegistered := rfl
@[simp] theorem raiseRefuse_ctl (r : RefuseReason) : (s.raiseRefuse r).ctl = s.ctl := rfl
@[simp] theorem raiseRefuse_i (r : RefuseReason) : (s.raiseRefuse r).i = s.i := rfl
@[simp] theorem raiseRefuse_refused (r : RefuseReason) : (s.raiseRefuse r).refused = true := rfl
@[simp] theorem raiseRefuse_refuseReason (r : RefuseReason) : (s.raiseRefuse r).refuseReason = some r := rfl
@[simp] theorem raiseRefuse_params (r : RefuseReason) : (s.raiseRefuse r).params = s.params := rfl
@[simp] theorem raiseRefuse_requests (r : RefuseReason) : (s.raiseRefuse r).requests = s.requests := rfl
@[simp] theorem raiseRefuse_resetIn (r : RefuseReason) : (s.raiseRefuse r).resetIn = s.resetIn := rfl
@[simp] theorem raiseRefuse_statusIn (r : RefuseReason) : (s.raiseRefuse r).statusIn = s.statusIn := rfl
@[simp] theorem raiseRefuse_dataIn (r : RefuseReason) : (s.raiseRefuse r).dataIn = s.dataIn := rfl
@[simp] theorem raiseRefuse_draws (r : RefuseReason) : (s.raiseRefuse r).draws = s.draws := rfl
@[simp] theorem raiseRefuse_trace (r : RefuseReason) : (s.raiseRefuse r).trace = s.trace := rfl

@[simp] theorem hardReset_buf : s.hardReset.buf = ⟨0, 0, 0⟩ := rfl
@[simp] theorem hardReset_cnt : s.hardReset.cnt = 0 := rfl
@[simp] theorem hardReset_leftPressed : s.hardReset.leftPressed = false := rfl
@[simp] theorem hardReset_rightPressed : s.hardReset.rightPressed = false := rfl
@[simp] theorem hardReset_cfg : s.hardReset.cfg = 0 := rfl
@[simp] theorem hardReset_irqRegistered : s.hardReset.irqRegistered = false := rfl
@[simp] theorem hardReset_ctl : s.hardReset.ctl = .idle := rfl
@[simp] theorem hardReset_i : s.hardReset.i = 0 := rfl
@[simp] theorem hardReset_refused : s.hardReset.refused = false := rfl
@[simp] theorem hardReset_refuseReason : s.hardReset.refuseReason = none := rfl
@[simp] theorem hardReset_params : s.hardReset.params = s.params := rfl
@[simp] theorem hardReset_requests : s.hardReset.requests = s.requests := rfl
@[simp] theorem hardReset_resetIn : s.hardReset.resetIn = s.resetIn := rfl
@[simp] theorem hardReset_statusIn : s.hardReset.statusIn = s.statusIn := rfl
@[simp] theorem hardReset_dataIn : s.hardReset.dataIn = s.dataIn := rfl
@[simp] theorem hardReset_draws : s.hardReset.draws = s.draws := rfl
@[simp] theorem hardReset_trace : s.hardReset.trace = s.trace := rfl

@[simp] theorem tick_buf : s.tick.buf = s.buf := rfl
@[simp] theorem tick_cnt : s.tick.cnt = s.cnt := rfl
@[simp] theorem tick_leftPressed : s.tick.leftPressed = s.leftPressed := rfl
@[simp] theorem tick_rightPressed : s.tick.rightPressed = s.rightPressed := rfl
@[simp] theorem tick_cfg : s.tick.cfg = s.cfg := rfl
@[simp] theorem tick_irqRegistered : s.tick.irqRegistered = s.irqRegistered := rfl
@[simp] theorem tick_ctl : s.tick.ctl = s.ctl := rfl
@[simp] theorem tick_i : s.tick.i = s.i := rfl
@[simp] theorem tick_refused : s.tick.refused = s.refused := rfl
@[simp] theorem tick_refuseReason : s.tick.refuseReason = s.refuseReason := rfl
@[simp] theorem tick_params : s.tick.params = s.params := rfl
@[simp] theorem tick_requests : s.tick.requests = s.requests := rfl
@[simp] theorem tick_resetIn : s.tick.resetIn = s.resetIn.tail := rfl
@[simp] theorem tick_statusIn : s.tick.statusIn = s.statusIn := rfl
@[simp] theorem tick_dataIn : s.tick.dataIn = s.dataIn := rfl
@[simp] theorem tick_draws : s.tick.draws = s.draws := rfl
@[simp] theorem tick_trace : s.tick.trace = s.trace := rfl

@[simp] theorem pressLeft_buf : s.pressLeft.buf = s.buf := rfl
@[simp] theorem pressLeft_cnt : s.pressLeft.cnt = s.cnt := rfl
@[simp] theorem pressLeft_leftPressed : s.pressLeft.leftPressed = true := rfl
@[simp] theorem pressLeft_rightPressed : s.pressLeft.rightPressed = s.rightPressed := rfl
@[simp] theorem pressLeft_cfg : s.pressLeft.cfg = s.cfg := rfl
@[simp] theorem pressLeft_irqRegistered : s.pressLeft.irqRegistered = s.irqRegistered := rfl
@[simp] theorem pressLeft_ctl : s.pressLeft.ctl = s.ctl := rfl
@[simp] theorem pressLeft_i : s.pressLeft.i = s.i := rfl
@[simp] theorem pressLeft_refused : s.pressLeft.refused = s.refused := rfl
@[simp] theorem pressLeft_refuseReason : s.pressLeft.refuseReason = s.refuseReason := rfl
@[simp] theorem pressLeft_params : s.pressLeft.params = s.params := rfl
@[simp] theorem pressLeft_requests : s.pressLeft.requests = s.requests := rfl
@[simp] theorem pressLeft_resetIn : s.pressLeft.resetIn = s.resetIn := rfl
@[simp] theorem pressLeft_statusIn : s.pressLeft.statusIn = s.statusIn := rfl
@[simp] theorem pressLeft_dataIn : s.pressLeft.dataIn = s.dataIn := rfl
@[simp] theorem pressLeft_draws : s.pressLeft.draws = s.draws := rfl
@[simp] theorem pressLeft_trace : s.pressLeft.trace = s.trace := rfl

@[simp] theorem clearLeft_buf : s.clearLeft.buf = s.buf := rfl
@[simp] theorem clearLeft_cnt : s.clearLeft.cnt = s.cnt := rfl
@[simp] theorem clearLeft_leftPressed : s.clearLeft.leftPressed = false := rfl
@[simp] theorem clearLeft_rightPressed : s.clearLeft.rightPressed = s.rightPressed := rfl
@[simp] theorem clearLeft_cfg : s.clearLeft.cfg = s.cfg := rfl
@[simp] theorem clearLeft_irqRegistered : s.clearLeft.irqRegistered = s.irqRegistered := rfl
@[simp] theorem clearLeft_ctl : s.clearLeft.ctl = s.ctl := rfl
@[simp] theorem clearLeft_i : s.clearLeft.i = s.i := rfl
@[simp] theorem clearLeft_refused : s.clearLeft.refused = s.refused := rfl
@[simp] theorem clearLeft_refuseReason : s.clearLeft.refuseReason = s.refuseReason := rfl
@[simp] theorem clearLeft_params : s.clearLeft.params = s.params := rfl
@[simp] theorem clearLeft_requests : s.clearLeft.requests = s.requests := rfl
@[simp] theorem clearLeft_resetIn : s.clearLeft.resetIn = s.resetIn := rfl
@[simp] theorem clearLeft_statusIn : s.clearLeft.statusIn = s.statusIn := rfl
@[simp] theorem clearLeft_dataIn : s.clearLeft.dataIn = s.dataIn := rfl
@[simp] theorem clearLeft_draws : s.clearLeft.draws = s.draws := rfl
@[simp] theorem clearLeft_trace : s.clearLeft.trace = s.trace := rfl

@[simp] theorem pressRight_buf : s.pressRight.buf = s.buf := rfl
@[simp] theorem pressRight_cnt : s.pressRight.cnt = s.cnt := rfl
@[simp] theorem pressRight_leftPressed : s.pressRight.leftPressed = s.leftPressed := rfl
@[simp] theorem pressRight_rightPressed : s.pressRight.rightPressed = true := rfl
@[simp] theorem pressRight_cfg : s.pressRight.cfg = s.cfg := rfl
@[simp] theorem pressRight_irqRegistered : s.pressRight.irqRegistered = s.irqRegistered := rfl
@[simp] theorem pressRight_ctl : s.pressRight.ctl = s.ctl := rfl
@[simp] theorem pressRight_i : s.pressRight.i = s.i := rfl
@[simp] theorem pressRight_refused : s.pressRight.refused = s.refused := rfl
@[simp] theorem pressRight_refuseReason : s.pressRight.refuseReason = s.refuseReason := rfl
@[simp] theorem pressRight_params : s.pressRight.params = s.params := rfl
@[simp] theorem pressRight_requests : s.pressRight.requests = s.requests := rfl
@[simp] theorem pressRight_resetIn : s.pressRight.resetIn = s.resetIn := rfl
@[simp] theorem pressRight_statusIn : s.pressRight.statusIn = s.statusIn := rfl
@[simp] theorem pressRight_dataIn : s.pressRight.dataIn = s.dataIn := rfl
@[simp] theorem pressRight_draws : s.pressRight.draws = s.draws := rfl
@[simp] theorem pressRight_trace : s.pressRight.trace = s.trace := rfl

@[simp] theorem clearRight_buf : s.clearRight.buf = s.buf := rfl
@[simp] theorem clearRight_cnt : s.clearRight.cnt = s.cnt := rfl
@[simp] theorem clearRight_leftPressed : s.clearRight.leftPressed = s.leftPressed := rfl
@[simp] theorem clearRight_rightPressed : s.clearRight.rightPressed = false := rfl
@[simp] theorem clearRight_cfg : s.clearRight.cfg = s.cfg := rfl
@[simp] theorem clearRight_irqRegistered : s.clearRight.irqRegistered = s.irqRegistered := rfl
@[simp] theorem clearRight_ctl : s.clearRight.ctl = s.ctl := rfl
@[simp] theorem clearRight_i : s.clearRight.i = s.i := rfl
@[simp] theorem clearRight_refused : s.clearRight.refused = s.refused := rfl
@[simp] theorem clearRight_refuseReason : s.clearRight.refuseReason = s.refuseReason := rfl
@[simp] theorem clearRight_params : s.clearRight.params = s.params := rfl
@[simp] theorem clearRight_requests : s.clearRight.requests = s.requests := rfl
@[simp] theorem clearRight_resetIn : s.clearRight.resetIn = s.resetIn := rfl
@[simp] theorem clearRight_statusIn : s.clearRight.statusIn = s.statusIn := rfl
@[simp] theorem clearRight_dataIn : s.clearRight.dataIn = s.dataIn := rfl
@[simp] theorem clearRight_draws : s.clearRight.draws = s.draws := rfl
@[simp] theorem clearRight_trace : s.clearRight.trace = s.trace := rfl

@[simp] theorem register_buf : s.register.buf = s.buf := rfl
@[simp] theorem register_cnt : s.register.cnt = s.cnt := rfl
@[simp] theorem register_leftPressed : s.register.leftPressed = s.leftPressed := rfl
@[simp] theorem register_rightPressed : s.register.rightPressed = s.rightPressed := rfl
@[simp] theorem register_cfg : s.register.cfg = s.cfg := rfl
@[simp] theorem register_irqRegistered : s.register.irqRegistered = true := rfl
@[simp] theorem register_ctl : s.register.ctl = s.ctl := rfl
@[simp] theorem register_i : s.register.i = s.i := rfl
@[simp] theorem register_refused : s.register.refused = s.refused := rfl
@[simp] theorem register_refuseReason : s.register.refuseReason = s.refuseReason := rfl
@[simp] theorem register_params : s.register.params = s.params := rfl
@[simp] theorem register_requests : s.register.requests = s.requests := rfl
@[simp] theorem register_resetIn : s.register.resetIn = s.resetIn := rfl
@[simp] theorem register_statusIn : s.register.statusIn = s.statusIn := rfl
@[simp] theorem register_dataIn : s.register.dataIn = s.dataIn := rfl
@[simp] theorem register_draws : s.register.draws = s.draws := rfl
@[simp] theorem register_trace : s.register.trace = s.trace := rfl

@[simp] theorem storeByte_buf (b : Byte) : (s.storeByte b).buf = s.buf.set s.cnt b := rfl
@[simp] theorem storeByte_cnt (b : Byte) : (s.storeByte b).cnt = s.cnt := rfl
@[simp] theorem storeByte_leftPressed (b : Byte) : (s.storeByte b).leftPressed = s.leftPressed := rfl
@[simp] theorem storeByte_rightPressed (b : Byte) : (s.storeByte b).rightPressed = s.rightPressed := rfl
@[simp] theorem storeByte_cfg (b : Byte) : (s.storeByte b).cfg = s.cfg := rfl
@[simp] theorem storeByte_irqRegistered (b : Byte) : (s.storeByte b).irqRegistered = s.irqRegistered := rfl
@[simp] theorem storeByte_ctl (b : Byte) : (s.storeByte b).ctl = s.ctl := rfl
@[simp] theorem storeByte_i (b : Byte) : (s.storeByte b).i = s.i := rfl
@[simp] theorem storeByte_refused (b : Byte) : (s.storeByte b).refused = s.refused := rfl
@[simp] theorem storeByte_refuseReason (b : Byte) : (s.storeByte b).refuseReason = s.refuseReason := rfl
@[simp] theorem storeByte_params (b : Byte) : (s.storeByte b).params = s.params := rfl
@[simp] theorem storeByte_requests (b : Byte) : (s.storeByte b).requests = s.requests := rfl
@[simp] theorem storeByte_resetIn (b : Byte) : (s.storeByte b).resetIn = s.resetIn := rfl
@[simp] theorem storeByte_statusIn (b : Byte) : (s.storeByte b).statusIn = s.statusIn := rfl
@[simp] theorem storeByte_dataIn (b : Byte) : (s.storeByte b).dataIn = s.dataIn := rfl
@[simp] theorem storeByte_draws (b : Byte) : (s.storeByte b).draws = s.draws := rfl
@[simp] theorem storeByte_trace (b : Byte) : (s.storeByte b).trace = s.trace := rfl

@[simp] theorem istatStep_buf : s.istatStep.buf = s.buf := by
  unfold istatStep; split <;> simp
@[simp] theorem istatStep_cnt : s.istatStep.cnt = s.cnt := by
  unfold istatStep; split <;> simp
@[simp] theorem istatStep_leftPressed : s.istatStep.leftPressed = s.leftPressed := by
  unfold istatStep; split <;> simp
@[simp] theorem istatStep_rightPressed : s.istatStep.rightPressed = s.rightPressed := by
  unfold istatStep; split <;> simp
@[simp] theorem istatStep_cfg : s.istatStep.cfg = s.cfg := by
  unfold istatStep; split <;> simp
@[simp] theorem istatStep_irqRegistered : s.istatStep.irqRegistered = s.irqRegistered := by
  unfold istatStep; split <;> simp
@[simp] theorem istatStep_i : s.istatStep.i = s.i := by
  unfold istatStep; split <;> simp
@[simp] theorem istatStep_refused : s.istatStep.refused = s.refused := by
  unfold istatStep; split <;> simp
@[simp] theorem istatStep_refuseReason : s.istatStep.refuseReason = s.refuseReason := by
  unfold istatStep; split <;> simp
@[simp] theorem istatStep_params : s.istatStep.params = s.params := by
  unfold istatStep; split <;> simp
@[simp] theorem istatStep_requests : s.istatStep.requests = s.requests := by
  unfold istatStep; split <;> simp
@[simp] theorem istatStep_resetIn : s.istatStep.resetIn = s.resetIn := by
  unfold istatStep; split <;> simp
@[simp] theorem istatStep_trace :
    s.istatStep.trace = s.trace ++ [.read .statusCmd (s.readValue .statusCmd)] := by
  unfold istatStep; split <;> simp

@[simp] theorem counterStep_buf : s.counterStep.buf = s.buf := rfl
@[simp] theorem counterStep_cnt : s.counterStep.cnt = nextCount s.cnt := rfl
@[simp] theorem counterStep_leftPressed : s.counterStep.leftPressed = s.leftPressed := rfl
@[simp] theorem counterStep_rightPressed : s.counterStep.rightPressed = s.rightPressed := rfl
@[simp] theorem counterStep_cfg : s.counterStep.cfg = s.cfg := rfl
@[simp] theorem counterStep_irqRegistered : s.counterStep.irqRegistered = s.irqRegistered := rfl
@[simp] theorem counterStep_ctl : s.counterStep.ctl = if s.cnt.val < 2 then .idle else .irq 2 := rfl
@[simp] theorem counterStep_i : s.counterStep.i = s.i := rfl
@[simp] theorem counterStep_refused : s.counterStep.refused = s.refused := rfl
@[simp] theorem counterStep_refuseReason : s.counterStep.refuseReason = s.refuseReason := rfl
@[simp] theorem counterStep_params : s.counterStep.params = s.params := rfl
@[simp] theorem counterStep_requests : s.counterStep.requests = s.requests := rfl
@[simp] theorem counterStep_resetIn : s.counterStep.resetIn = s.resetIn := rfl
@[simp] theorem counterStep_statusIn : s.counterStep.statusIn = s.statusIn := rfl
@[simp] theorem counterStep_dataIn : s.counterStep.dataIn = s.dataIn := rfl
@[simp] theorem counterStep_draws : s.counterStep.draws = s.draws := rfl
@[simp] theorem counterStep_trace : s.counterStep.trace = s.trace := rfl

end Sys2Proof.Machine.State
end

