-- ==== Sys2Proof/Laws/Ops.lean ====
section
/-! SUPPORT. One specification lemma per shared operation: the guards, port reads, the byte tests, the packet slots, the
control state, and what one step can do. -/

namespace Sys2Proof.Machine

/-! ### The guards -/

/-- All that a guarded meaning can do when it answers a next state. -/
theorem runIf_next_iff {s t u : State} {p : Prop} [Decidable p] :
    runIf s p t = .next u ↔ s.refused = false ∧ p ∧ t = u := by
  unfold runIf
  cases h : s.refused <;> by_cases hp : p <;> simp [hp]

theorem runIf_selected {s t : State} {p : Prop} [Decidable p] (hr : s.refused = false) (hp : p) :
    runIf s p t = .next t := by
  simp [runIf, hr, hp]

/-- A guarded meaning of a state that is not refused stops only by the fault of its name. -/
theorem runIf_not_selected {s t : State} {p : Prop} [Decidable p] (hr : s.refused = false) (hp : ¬p) :
    runIf s p t = .fault .notSelected := by
  simp [runIf, hr, hp]

/-- All that a request can do when it answers a next state. -/
theorem onRequest_next_iff {s t u : State} :
    onRequest s t = .next u ↔ s.refused = false ∧ ((s.ctl = .idle ∧ t = u) ∨ (s.ctl ≠ .idle ∧ s = u)) := by
  unfold onRequest
  cases h : s.refused <;> by_cases hc : s.ctl = .idle <;> simp [hc]

theorem onRequest_idle {s t : State} (hr : s.refused = false) (hc : s.ctl = .idle) : onRequest s t = .next t := by
  simp [onRequest, hr, hc]

theorem onRequest_busy {s t : State} (hr : s.refused = false) (hc : s.ctl ≠ .idle) : onRequest s t = .next s := by
  simp [onRequest, hr, hc]

/-- A refused state has no next state under any guard (R214). -/
theorem runIf_refused {s t : State} {p : Prop} [Decidable p] (hr : s.refused = true) :
    runIf s p t = .refused (.refusedState s.refuseReason) := by
  simp [runIf, hr]

theorem onRequest_refused {s t : State} (hr : s.refused = true) :
    onRequest s t = .refused (.refusedState s.refuseReason) := by
  simp [onRequest, hr]

/-! ### Port reads -/

@[simp] theorem readValue_data_cons {s : State} {b : Byte} {rest : List Byte} (h : s.dataIn = b :: rest) :
    s.readValue .data = b := by
  simp [State.readValue, h]

@[simp] theorem readValue_status_cons {s : State} {b : Byte} {rest : List Byte} (h : s.statusIn = b :: rest) :
    s.readValue .statusCmd = b := by
  simp [State.readValue, h]

theorem didRead_data_cons {s : State} {b : Byte} {rest : List Byte} (h : s.dataIn = b :: rest) :
    s.didRead .data = { s with dataIn := rest, trace := s.trace ++ [.read .data b] } := by
  simp [State.didRead, State.takeInput, State.readValue, h]

theorem didRead_status_cons {s : State} {b : Byte} {rest : List Byte} (h : s.statusIn = b :: rest) :
    s.didRead .statusCmd = { s with statusIn := rest, trace := s.trace ++ [.read .statusCmd b] } := by
  simp [State.didRead, State.takeInput, State.readValue, h]

theorem didRead_data_free {s : State} (h : s.dataIn = []) :
    s.didRead .data =
      { s with draws := s.draws + 1, trace := s.trace ++ [.read .data (Config.freeData s.draws)] } := by
  simp [State.didRead, State.takeInput, State.readValue, h]

theorem didRead_status_free {s : State} (h : s.statusIn = []) :
    s.didRead .statusCmd =
      { s with draws := s.draws + 1, trace := s.trace ++ [.read .statusCmd (Config.freeStatus s.draws)] } := by
  simp [State.didRead, State.takeInput, State.readValue, h]

/-! ### The tests by mask are the tests by bit (30_encoding.md R78, R80) -/

theorem writeReady_eq_bit (b : Byte) : writeReady b = !bitOf b 1 := by revert b; decide
theorem readReady_eq_bit (b : Byte) : readReady b = bitOf b 0 := by revert b; decide
theorem irqData_eq_bit (b : Byte) : irqData b = bitOf b 0 := by revert b; decide

theorem mask_yovf (b : Byte) : b &&& 0x80 = 0x80 ↔ bitOf b 7 = true := by revert b; decide
theorem mask_xovf (b : Byte) : b &&& 0x40 = 0x40 ↔ bitOf b 6 = true := by revert b; decide
theorem mask_left_pressed (b : Byte) : b &&& 0xC1 = 0x01 ↔ overflow b = false ∧ leftBit b = true := by
  revert b; decide
theorem mask_left_released (b : Byte) : b &&& 0xC1 = 0x00 ↔ overflow b = false ∧ leftBit b = false := by
  revert b; decide
theorem mask_right_pressed (b : Byte) : b &&& 0xC2 = 0x02 ↔ overflow b = false ∧ rightBit b = true := by
  revert b; decide
theorem mask_right_released (b : Byte) : b &&& 0xC2 = 0x00 ↔ overflow b = false ∧ rightBit b = false := by
  revert b; decide
theorem mask_motion (b : Byte) : b &&& 0xC0 = 0x00 ↔ overflow b = false := by revert b; decide
theorem mask_irq12 (b : Byte) : b &&& 0x02 = 0x02 ↔ bitOf b 1 = true := by revert b; decide

/-- `sext_8` is the two's-complement reading of the byte (R17, R83). -/
theorem sext8_eq_toInt (b : Byte) : sext8 b = b.toInt := by revert b; decide

/-! ### Packet slots and the control state -/

theorem PacketBuf.get_set (b : PacketBuf) (k j : Fin 3) (v : Byte) :
    (b.set k v).get j = if j = k then v else b.get j := by
  match k, j with
  | 0, 0 | 0, 1 | 0, 2 | 1, 0 | 1, 1 | 1, 2 | 2, 0 | 2, 1 | 2, 2 => rfl

theorem Ctl.next_init {k k' : Fin 24} (h : k'.val = k.val + 1) : (Ctl.init k).next = .init k' := by
  have : k.val + 1 < 24 := h ▸ k'.isLt
  simp only [Ctl.next, this, dite_true]
  congr 1
  exact Fin.ext h.symm

/-! ### One step -/

/-- All that one step can do when it answers a next state: the reset, or the selected instruction. -/
theorem step_next {s t : State} (h : step s = .next t) :
    (s.resetIn.head? = some true ∧ t = s.tick.hardReset) ∨
      (s.resetIn.head? ≠ some true ∧ s.refused = false ∧ exec s.tick.fetch s.tick = .next t) := by
  unfold step at h
  by_cases hh : s.resetIn.head? = some true
  · simp only [hh, if_true, Host.Outcome.next.injEq] at h
    exact .inl ⟨hh, h.symm⟩
  · cases hr : s.refused
    · simp only [hh, hr, if_false, Bool.false_eq_true] at h
      exact .inr ⟨hh, rfl, h⟩
    · simp [hh, hr] at h

/-- The reset input high: every state is reset (R230). -/
theorem step_reset {s : State} (hh : s.resetIn.head? = some true) : step s = .next s.tick.hardReset := by
  simp [step, hh]

/-- The reset input low: a refused state has no step (R214). -/
theorem step_refused {s : State} (hr : s.refused = true) (hh : s.resetIn.head? ≠ some true) :
    step s = .refused (.refusedState s.refuseReason) := by
  simp [step, hr, hh]

/-- A step that is neither refused nor a reset is the selected instruction's. -/
theorem step_runs {s : State} (hr : s.refused = false) (hh : s.resetIn.head? ≠ some true) :
    step s = exec s.tick.fetch s.tick := by
  simp [step, hr, hh]

/-- With no reset level listed, a step leaves the reset input alone. -/
theorem tick_of_nil {s : State} (h : s.resetIn = []) : s.tick = s := by
  simp [State.tick, h]
  rw [← h]

theorem run_eq_core_run (n : Nat) (s : State) : run n s = Sys2Proof.core.run n s := by
  induction n generalizing s with
  | zero => rfl
  | succ n ih =>
    simp only [run, Host.Core.run, Sys2Proof.core]
    cases h : step s with
    | next t => exact ih t
    | fault r => rfl
    | refused r => rfl

/-- A run of n + 1 steps is a step and then a run. -/
theorem run_succ_of_step {n : Nat} {s t : State} (h : step s = .next t) : run (n + 1) s = run n t := by
  simp [run, h]

/-- Runs compose. -/
theorem run_add {n m : Nat} {s t : State} (h : run n s = .next t) : run (n + m) s = run m t := by
  induction n generalizing s with
  | zero => simp only [run, Host.Outcome.next.injEq] at h; subst h; simp
  | succ n ih =>
    rw [Nat.add_right_comm]
    simp only [run] at h ⊢
    cases hs : step s with
    | next u => rw [hs] at h; exact ih h
    | fault r => rw [hs] at h; simp at h
    | refused r => rw [hs] at h; simp at h

end Sys2Proof.Machine
end

