-- ==== Sys2Proof/Laws/Exec.lean ====
section
/-! SUPPORT. Per instruction, everything its meaning can do when it answers a next state; and the instruction a step
selects is never faulted. -/

namespace Sys2Proof.Machine

variable {s t : State}

theorem exec_init_next_iff :
    exec .init s = .next t ↔
      s.refused = false ∧ ((s.ctl = .idle ∧ s.takeOffer.enterInit = t) ∨ (s.ctl ≠ .idle ∧ s = t)) :=
  onRequest_next_iff

theorem exec_irq_next_iff :
    exec .irq s = .next t ↔
      s.refused = false ∧ ((s.ctl = .idle ∧ (if s.irqRegistered then s.takeOffer.enterIrq.istatStep else s.takeOffer.raiseRefuse .irqBeforeRegister) = t) ∨ (s.ctl ≠ .idle ∧ s = t)) :=
  onRequest_next_iff

theorem exec_reservedRequest_next_iff :
    exec .reservedRequest s = .next t ↔
      s.refused = false ∧ ((s.ctl = .idle ∧ s.takeOffer.raiseRefuse .reservedRequest = t) ∨ (s.ctl ≠ .idle ∧ s = t)) :=
  onRequest_next_iff

theorem exec_nopRequest_next_iff :
    exec .nopRequest s = .next t ↔
      s.refused = false ∧ ((s.ctl = .idle ∧ s.takeOffer = t) ∨ (s.ctl ≠ .idle ∧ s = t)) :=
  onRequest_next_iff

theorem exec_waitw_next_iff :
    exec .waitw s = .next t ↔
      s.refused = false ∧ s.microOp = some .waitw ∧
      s.pollStep writeReady .write = t :=
  runIf_next_iff

theorem exec_waitr_next_iff :
    exec .waitr s = .next t ↔
      s.refused = false ∧ s.microOp = some .waitr ∧
      s.pollStep readReady .read = t :=
  runIf_next_iff

theorem exec_ackloop_next_iff :
    exec .ackloop s = .next t ↔
      s.refused = false ∧ s.microOp = some .ackloop ∧
      s.ackStep = t :=
  runIf_next_iff

theorem exec_out_next_iff {p : Port} {v : OutVal} :
    exec (.out p v) s = .next t ↔
      s.refused = false ∧ s.microOp = some (.out p v) ∧
      s.outStep p (OutVal.value s v) = t :=
  runIf_next_iff

theorem exec_inCfg_next_iff :
    exec .inCfg s = .next t ↔
      s.refused = false ∧ s.microOp = some .inCfg ∧
      { s.didRead .data with cfg := s.readValue .data, ctl := .init 6 } = t :=
  runIf_next_iff

theorem exec_cfgOr_next_iff {m : Byte} :
    exec (.cfgOr m) s = .next t ↔
      s.refused = false ∧ s.microOp = some (.cfgOr m) ∧
      { s with cfg := cfgWith m s.cfg, ctl := .init 7 } = t :=
  runIf_next_iff

theorem exec_regirq_next_iff {line dest : Nat} :
    exec (.regirq line dest) s = .next t ↔
      s.refused = false ∧ s.microOp = some (.regirq line dest) ∧
      ((s.emit (.irqRegister line dest)).register).toIdle = t :=
  runIf_next_iff

theorem exec_istat_next_iff :
    exec .istat s = .next t ↔
      s.refused = false ∧ s.microOp = some .istat ∧
      s.istatStep = t :=
  runIf_next_iff

theorem exec_idata_next_iff :
    exec .idata s = .next t ↔
      s.refused = false ∧ s.microOp = some .idata ∧
      ((s.didRead .data).storeByte (s.readValue .data)).counterStep = t :=
  runIf_next_iff

theorem exec_decode_next_iff :
    exec .decode s = .next t ↔
      s.refused = false ∧ s.microOp = some .decode ∧
      s.decodeStep = t :=
  runIf_next_iff

theorem exec_ctrlEnableAux_next_iff :
    exec .ctrlEnableAux s = .next t ↔
      s.refused = false ∧ s.microOp = some (.out .statusCmd (.imm 0xA8)) ∧
      s.outStep .statusCmd 0xA8 = t :=
  runIf_next_iff

theorem exec_ctrlReadConfig_next_iff :
    exec .ctrlReadConfig s = .next t ↔
      s.refused = false ∧ s.microOp = some (.out .statusCmd (.imm 0x20)) ∧
      s.outStep .statusCmd 0x20 = t :=
  runIf_next_iff

theorem exec_ctrlWriteConfig_next_iff :
    exec .ctrlWriteConfig s = .next t ↔
      s.refused = false ∧ s.microOp = some (.out .statusCmd (.imm 0x60)) ∧
      s.outStep .statusCmd 0x60 = t :=
  runIf_next_iff

theorem exec_ctrlWriteAux_next_iff :
    exec .ctrlWriteAux s = .next t ↔
      s.refused = false ∧ s.microOp = some (.out .statusCmd (.imm 0xD4)) ∧
      s.outStep .statusCmd 0xD4 = t :=
  runIf_next_iff

theorem exec_auxSetDefaults_next_iff :
    exec .auxSetDefaults s = .next t ↔
      s.refused = false ∧ s.microOp = some (.out .data (.imm 0xF6)) ∧
      s.outStep .data 0xF6 = t :=
  runIf_next_iff

theorem exec_auxEnableReporting_next_iff :
    exec .auxEnableReporting s = .next t ↔
      s.refused = false ∧ s.microOp = some (.out .data (.imm 0xF4)) ∧
      s.outStep .data 0xF4 = t :=
  runIf_next_iff

theorem exec_auxAck_next_iff :
    exec .auxAck s = .next t ↔
      s.refused = false ∧ (s.microOp = some .ackloop ∧ s.readValue .data = 0xFA) ∧
      (s.didRead .data).endLoop = t :=
  runIf_next_iff

theorem exec_statusWriteReady_next_iff {b : Byte} :
    exec (.statusWriteReady b) s = .next t ↔
      s.refused = false ∧ (s.microOp = some .waitw ∧ s.readValue .statusCmd = b ∧ b &&& 0x02 = 0x00) ∧
      (s.didRead .statusCmd).endLoop = t :=
  runIf_next_iff

theorem exec_statusReadReady_next_iff {b : Byte} :
    exec (.statusReadReady b) s = .next t ↔
      s.refused = false ∧ (s.microOp = some .waitr ∧ s.readValue .statusCmd = b ∧ b &&& 0x01 = 0x01) ∧
      (s.didRead .statusCmd).endLoop = t :=
  runIf_next_iff

theorem exec_statusIrqData_next_iff {b : Byte} :
    exec (.statusIrqData b) s = .next t ↔
      s.refused = false ∧ (s.microOp = some .istat ∧ s.readValue .statusCmd = b ∧ b &&& 0x01 = 0x01) ∧
      { s.didRead .statusCmd with ctl := .irq 1 } = t :=
  runIf_next_iff

theorem exec_cfgIrq12En_next_iff {b : Byte} :
    exec (.cfgIrq12En b) s = .next t ↔
      s.refused = false ∧ (s.microOp = some (.cfgOr 0x02) ∧ b &&& 0x02 = 0x02 ∧ cfgWith 0x02 s.cfg = b) ∧
      { s with cfg := b, ctl := .init 7 } = t :=
  runIf_next_iff

theorem exec_pktYovf_next_iff {b : Byte} :
    exec (.pktYovf b) s = .next t ↔
      s.refused = false ∧ (s.decoding b ∧ b &&& 0x80 = 0x80) ∧
      s.toIdle = t :=
  runIf_next_iff

theorem exec_pktXovf_next_iff {b : Byte} :
    exec (.pktXovf b) s = .next t ↔
      s.refused = false ∧ (s.decoding b ∧ b &&& 0x40 = 0x40) ∧
      s.toIdle = t :=
  runIf_next_iff

theorem exec_pktLbtnPressed_next_iff {b : Byte} :
    exec (.pktLbtnPressed b) s = .next t ↔
      s.refused = false ∧ (s.decoding b ∧ b &&& 0xC1 = 0x01) ∧
      s.pressLeft.rightStep = t :=
  runIf_next_iff

theorem exec_pktLbtnReleased_next_iff {b : Byte} :
    exec (.pktLbtnReleased b) s = .next t ↔
      s.refused = false ∧ (s.decoding b ∧ b &&& 0xC1 = 0x00) ∧
      (if s.leftPressed then s.leftClicked else s.rightStep) = t :=
  runIf_next_iff

theorem exec_pktRbtnPressed_next_iff {b : Byte} :
    exec (.pktRbtnPressed b) s = .next t ↔
      s.refused = false ∧ (s.decoding b ∧ b &&& 0xC2 = 0x02 ∧ releaseEdge s.leftPressed (leftBit b) = false) ∧
      s.leftStored.pressRight.motionStep = t :=
  runIf_next_iff

theorem exec_pktRbtnReleased_next_iff {b : Byte} :
    exec (.pktRbtnReleased b) s = .next t ↔
      s.refused = false ∧ (s.decoding b ∧ b &&& 0xC2 = 0x00 ∧ releaseEdge s.leftPressed (leftBit b) = false) ∧
      (if s.rightPressed then s.leftStored.rightClicked else s.leftStored.motionStep) = t :=
  runIf_next_iff

theorem exec_pktMove_next_iff {b : Byte} :
    exec (.pktMove b) s = .next t ↔
      s.refused = false ∧ (s.decoding b ∧ b &&& 0xC0 = 0x00 ∧ releaseEdge s.leftPressed (leftBit b) = false ∧
        releaseEdge s.rightPressed (rightBit b) = false) ∧
      s.leftStored.rightStored.motionStep = t :=
  runIf_next_iff

theorem exec_send_next_iff {c : Byte} :
    exec (.send c) s = .next t ↔
      s.refused = false ∧ ∃ j, s.enclosingSend = some (c, j) ∧ s.sendStep c j = t := by
  show runIf s _ _ = _ ↔ _
  rw [runIf_next_iff]
  cases s.enclosingSend with
  | none => simp
  | some cj =>
    obtain ⟨c', j⟩ := cj
    constructor
    · rintro ⟨hr, hc, rfl⟩
      obtain rfl : c' = c := by simpa using hc
      exact ⟨hr, j, rfl, rfl⟩
    · rintro ⟨hr, j', hj, rfl⟩
      obtain ⟨rfl, rfl⟩ : c' = c ∧ j = j' := by simpa using hj
      exact ⟨hr, rfl, rfl⟩

/-- What each entry of INIT_SEQ does, as one next state per micro-operation it can hold (R141). -/
theorem initSeq_cases (c : Params) (k : Fin 24) :
    initSeq c k = .waitw ∨ initSeq c k = .waitr ∨ initSeq c k = .ackloop ∨ initSeq c k = .inCfg ∨
      initSeq c k = .cfgOr 0x02 ∨ initSeq c k = .regirq c.irqLine c.irqDest ∨
      ∃ p v, initSeq c k = .out p v ∧ outOperandsLegal p v = true := by
  fin_cases k <;> simp [initSeq, outOperandsLegal]

/-- What each entry of IRQ_SEQ is (R161). -/
theorem irqSeq_cases (k : Fin 3) : irqSeq k = .istat ∨ irqSeq k = .idata ∨ irqSeq k = .decode := by
  revert k; decide

theorem microOp_init {k : Fin 24} (h : s.ctl = .init k) : s.microOp = some (initSeq s.params k) := by
  simp [State.microOp, h]

theorem microOp_irq {k : Fin 3} (h : s.ctl = .irq k) : s.microOp = some (irqSeq k) := by
  simp [State.microOp, h]

theorem microOp_idle (h : s.ctl = .idle) : s.microOp = none := by
  simp [State.microOp, h]

end Sys2Proof.Machine
end

