-- ==== Sys2Proof/Laws/Steps.lean ====
section
/-! SUPPORT. The specification lemmas of the shared steps: the poll loop (R100 to R103), ACKLOOP (R122), SEND (R120), the
counter step (R164) and the decode (R170), one lemma per branch. -/

namespace Sys2Proof.Machine

variable {s : State}

/-! ### Moving to the next entry -/

theorem endLoop_at {k k' : Fin 24} (hc : s.ctl = .init k) (hk : k'.val = k.val + 1) :
    s.endLoop = { s with i := 0, ctl := .init k' } := by
  simp [State.endLoop, hc, Ctl.next_init hk]

theorem advance_at {k k' : Fin 24} (hc : s.ctl = .init k) (hk : k'.val = k.val + 1) :
    s.advance = { s with ctl := .init k' } := by
  simp [State.advance, hc, Ctl.next_init hk]

theorem outStep_at {k k' : Fin 24} {p : Port} {v : Byte} (hc : s.ctl = .init k) (hk : k'.val = k.val + 1) :
    s.outStep p v = { s with ctl := .init k', trace := s.trace ++ [.write p v] } := by
  have hc' : (s.portWrite p v).ctl = .init k := hc
  rw [State.outStep, advance_at hc' hk]; rfl

/-- The micro-operation that an entry of INIT_SEQ selects. -/
theorem microOp_at {k : Fin 24} {i : Instr} (hc : s.ctl = .init k) (h : initSeq s.params k = i) :
    s.microOp = some i := by
  rw [microOp_init hc, h]

/-! ### The poll loop -/

theorem pollStep_ready {ready : Byte → Bool} {kind : PollKind} (h : ready (s.readValue .statusCmd) = true) :
    s.pollStep ready kind = (s.didRead .statusCmd).endLoop := by
  simp [State.pollStep, h]

theorem pollStep_timeout {ready : Byte → Bool} {kind : PollKind} (h : ready (s.readValue .statusCmd) = false)
    (hi : s.i + 1 = s.params.pollBound) :
    s.pollStep ready kind = ((s.didRead .statusCmd).emit (.pollTimeout kind)).endLoop := by
  simp [State.pollStep, h, hi]

theorem pollStep_retry {ready : Byte → Bool} {kind : PollKind} (h : ready (s.readValue .statusCmd) = false)
    (hi : s.i + 1 ≠ s.params.pollBound) :
    s.pollStep ready kind = (s.didRead .statusCmd).countRetry := by
  simp [State.pollStep, h, hi]

/-! ### ACKLOOP -/

theorem ackStep_acked (h : s.readValue .data = 0xFA) : s.ackStep = (s.didRead .data).endLoop := by
  rw [State.ackStep, h]; rfl

theorem ackStep_discarded (h : s.readValue .data ≠ 0xFA) : s.ackStep = (s.didRead .data).notAcked := by
  simp only [State.ackStep, isAck, h, decide_false, Bool.false_eq_true, if_false]

theorem notAcked_unbounded (h : s.params.ackBound = none) : s.notAcked = s := by
  simp [State.notAcked, h]

theorem notAcked_timeout {n : Nat} (h : s.params.ackBound = some n) (hi : s.i + 1 = n) :
    s.notAcked = s.emitAckTimeout.endLoop := by
  simp [State.notAcked, h, hi]

theorem notAcked_retry {n : Nat} (h : s.params.ackBound = some n) (hi : s.i + 1 ≠ n) : s.notAcked = s.countRetry := by
  simp [State.notAcked, h, hi]

/-- The operand of the SEND that encloses an ACKLOOP (R122). -/
theorem emitAckTimeout_at {k : Fin 24} {c : Byte} (hc : s.ctl = .init k)
    (hk : k.val = 16 ∧ c = 0xF6 ∨ k.val = 22 ∧ c = 0xF4) : s.emitAckTimeout = s.emit (.ackTimeout c) := by
  rcases hk with ⟨hk, rfl⟩ | ⟨hk, rfl⟩ <;>
    simp [State.emitAckTimeout, State.enclosingSend, hc, sendAt, hk]

/-! ### The status check -/

theorem istatStep_data (h : irqData (s.readValue .statusCmd) = true) :
    s.istatStep = { s.didRead .statusCmd with ctl := .irq 1 } := by
  simp [State.istatStep, h]

theorem istatStep_spurious (h : irqData (s.readValue .statusCmd) = false) :
    s.istatStep = (s.didRead .statusCmd).toIdle := by
  simp [State.istatStep, h]

/-! ### The decode -/

theorem decodeStep_overflow (h : overflow s.buf.b0 = true) : s.decodeStep = s.toIdle := by
  simp [State.decodeStep, h]

theorem decodeStep_leftClick (h : overflow s.buf.b0 = false) (hb : leftBit s.buf.b0 = false)
    (hl : s.leftPressed = true) : s.decodeStep = s.leftClicked := by
  simp [State.decodeStep, State.leftStep, h, hb, hl]

/-- Past the left step the flag holds the packet's bit (R180). -/
theorem leftStored_eq (h : leftBit s.buf.b0 = true ∨ s.leftPressed = false) :
    s.leftStored = { s with leftPressed := leftBit s.buf.b0 } := by
  cases hb : leftBit s.buf.b0
  · have hl : s.leftPressed = false := by simpa [hb] using h
    simp only [State.leftStored, hb, Bool.false_eq_true, if_false]
    cases s; simp_all
  · simp [State.leftStored, hb, State.pressLeft]

theorem rightStored_eq (h : rightBit s.buf.b0 = true ∨ s.rightPressed = false) :
    s.rightStored = { s with rightPressed := rightBit s.buf.b0 } := by
  cases hb : rightBit s.buf.b0
  · have hl : s.rightPressed = false := by simpa [hb] using h
    simp only [State.rightStored, hb, Bool.false_eq_true, if_false]
    cases s; simp_all
  · simp [State.rightStored, hb, State.pressRight]

/-- The left step that does not end the decode goes on to the right step (R172, R173). -/
theorem leftStep_passes (h : leftBit s.buf.b0 = true ∨ s.leftPressed = false) :
    s.leftStep = s.leftStored.rightStep := by
  cases hb : leftBit s.buf.b0
  · have hl : s.leftPressed = false := by simpa [hb] using h
    simp [State.leftStep, State.leftStored, hb, hl]
  · simp [State.leftStep, State.leftStored, hb]

/-- The right step that does not end the decode goes on to the motion step (R174, R175). -/
theorem rightStep_passes (h : rightBit s.buf.b0 = true ∨ s.rightPressed = false) :
    s.rightStep = s.rightStored.motionStep := by
  cases hb : rightBit s.buf.b0
  · have hl : s.rightPressed = false := by simpa [hb] using h
    simp [State.rightStep, State.rightStored, hb, hl]
  · simp [State.rightStep, State.rightStored, hb]

theorem rightStep_click (hb : rightBit s.buf.b0 = false) (hr : s.rightPressed = true) : s.rightStep = s.rightClicked := by
  simp [State.rightStep, hb, hr]

theorem releaseEdge_eq_false_iff (flag bit : Bool) : releaseEdge flag bit = false ↔ bit = true ∨ flag = false := by
  cases flag <;> cases bit <;> simp [releaseEdge]

end Sys2Proof.Machine
end

