-- ==== Sys2Proof/Laws/Effects.lean ====
section
/-! SUPPORT. Everything an instruction can do, said once: an instruction that answers a next state is a request, or acts as
the micro-operation that the state selects (R86); and each selected micro-operation has the branches listed here. -/

namespace Sys2Proof.Machine

variable {s t : State} {i : Instr}

/-- The poll loop has three branches (R101, R103). -/
theorem pollStep_cases (s : State) (ready : Byte → Bool) (kind : PollKind) :
    s.pollStep ready kind = (s.didRead .statusCmd).endLoop ∨
      (s.i + 1 = s.params.pollBound ∧
        s.pollStep ready kind = ((s.didRead .statusCmd).emit (.pollTimeout kind)).endLoop) ∨
      (s.i + 1 ≠ s.params.pollBound ∧ s.pollStep ready kind = (s.didRead .statusCmd).countRetry) := by
  cases hr : ready (s.readValue .statusCmd)
  · by_cases hi : s.i + 1 = s.params.pollBound
    · exact .inr (.inl ⟨hi, pollStep_timeout hr hi⟩)
    · exact .inr (.inr ⟨hi, pollStep_retry hr hi⟩)
  · exact .inl (pollStep_ready hr)

/-- ACKLOOP has four branches (R122). -/
theorem ackStep_cases (s : State) :
    s.ackStep = (s.didRead .data).endLoop ∨
      (s.params.ackBound = none ∧ s.ackStep = s.didRead .data) ∨
      (∃ n, s.params.ackBound = some n ∧ s.i + 1 = n ∧ s.ackStep = (s.didRead .data).emitAckTimeout.endLoop) ∨
      (∃ n, s.params.ackBound = some n ∧ s.i + 1 ≠ n ∧ s.ackStep = (s.didRead .data).countRetry) := by
  by_cases hb : s.readValue .data = 0xFA
  · exact .inl (ackStep_acked hb)
  · rw [ackStep_discarded hb]
    cases ha : s.params.ackBound with
    | none => exact .inr (.inl ⟨rfl, notAcked_unbounded (by simpa using ha)⟩)
    | some n =>
      by_cases hi : s.i + 1 = n
      · exact .inr (.inr (.inl ⟨n, rfl, hi, notAcked_timeout (by simpa using ha) (by simpa using hi)⟩))
      · exact .inr (.inr (.inr ⟨n, rfl, hi, notAcked_retry (by simpa using ha) (by simpa using hi)⟩))

/-- The status check has two outcomes (R162). -/
theorem istatStep_cases (s : State) :
    s.istatStep = { s.didRead .statusCmd with ctl := .irq 1 } ∨ s.istatStep = (s.didRead .statusCmd).toIdle := by
  cases h : irqData (s.readValue .statusCmd)
  · exact .inr (istatStep_spurious h)
  · exact .inl (istatStep_data h)

/-- The decode has four outcomes, in the order of R208. -/
theorem decodeStep_cases (s : State) :
    (overflow s.buf.b0 = true ∧ s.decodeStep = s.toIdle) ∨
      (overflow s.buf.b0 = false ∧ s.decodeStep = s.leftClicked) ∨
      (overflow s.buf.b0 = false ∧ s.decodeStep = s.leftStored.rightClicked) ∨
      (overflow s.buf.b0 = false ∧ s.decodeStep = s.leftStored.rightStored.motionStep) := by
  cases ho : overflow s.buf.b0
  · have hd : s.decodeStep = s.leftStep := by simp [State.decodeStep, ho]
    cases hb : leftBit s.buf.b0 <;> cases hl : s.leftPressed <;> cases hb1 : rightBit s.buf.b0 <;>
      cases hr : s.rightPressed <;>
      simp [hd, State.leftStep, State.rightStep, State.leftStored, State.rightStored, hb, hl, hb1, hr]
  · exact .inl ⟨rfl, decodeStep_overflow ho⟩

/-- The encoded rows of `pkt_status8`, where they apply, are the decode (R171 to R176). -/
theorem packet_row_is_decode {b : Byte} (hm : s.decoding b)
    (h : (b &&& 0x80 = 0x80 ∧ t = s.toIdle) ∨ (b &&& 0x40 = 0x40 ∧ t = s.toIdle) ∨
      (b &&& 0xC1 = 0x01 ∧ t = s.pressLeft.rightStep) ∨
      (b &&& 0xC1 = 0x00 ∧ t = if s.leftPressed then s.leftClicked else s.rightStep) ∨
      (b &&& 0xC2 = 0x02 ∧ releaseEdge s.leftPressed (leftBit b) = false ∧
        t = s.leftStored.pressRight.motionStep) ∨
      (b &&& 0xC2 = 0x00 ∧ releaseEdge s.leftPressed (leftBit b) = false ∧
        t = if s.rightPressed then s.leftStored.rightClicked else s.leftStored.motionStep) ∨
      (b &&& 0xC0 = 0x00 ∧ releaseEdge s.leftPressed (leftBit b) = false ∧
        releaseEdge s.rightPressed (rightBit b) = false ∧ t = s.leftStored.rightStored.motionStep)) :
    t = s.decodeStep := by
  obtain ⟨-, rfl⟩ := hm
  rcases h with ⟨h, rfl⟩ | ⟨h, rfl⟩ | ⟨h, rfl⟩ | ⟨h, rfl⟩ | ⟨h, hl, rfl⟩ | ⟨h, hl, rfl⟩ | ⟨h, hl, hr, rfl⟩
  · rw [mask_yovf] at h
    exact (decodeStep_overflow (by simp [overflow, h])).symm
  · rw [mask_xovf] at h
    exact (decodeStep_overflow (by simp [overflow, h])).symm
  · rw [mask_left_pressed] at h
    simp [State.decodeStep, State.leftStep, h]
  · rw [mask_left_released] at h
    simp [State.decodeStep, State.leftStep, h]
  · rw [mask_right_pressed] at h
    rw [releaseEdge_eq_false_iff] at hl
    simp only [State.decodeStep, h.1, Bool.false_eq_true, if_false]
    rw [leftStep_passes hl, leftStored_eq hl]
    simp [State.rightStep, h]
  · rw [mask_right_released] at h
    rw [releaseEdge_eq_false_iff] at hl
    simp only [State.decodeStep, h.1, Bool.false_eq_true, if_false]
    rw [leftStep_passes hl, leftStored_eq hl]
    simp [State.rightStep, h]
  · rw [mask_motion] at h
    rw [releaseEdge_eq_false_iff] at hl hr
    simp only [State.decodeStep, h, Bool.false_eq_true, if_false]
    rw [leftStep_passes hl, leftStored_eq hl, rightStep_passes (by exact hr)]

/-- A request that answers a next state: taken when idle, or held and without effect while busy (R30, R71). -/
def RequestEffect (s t : State) : Prop :=
  (s.ctl ≠ .idle ∧ t = s) ∨
    (s.ctl = .idle ∧
      (t = s.takeOffer.enterInit ∨ (s.irqRegistered = true ∧ t = s.takeOffer.enterIrq.istatStep) ∨
        (∃ r, t = s.takeOffer.raiseRefuse r) ∨ t = s.takeOffer))

/-- The effect of the micro-operation m, which the state selects, branch by branch. -/
def MicroEffect (s t : State) : Instr → Prop
  | .waitw => t = s.pollStep writeReady .write
  | .waitr => t = s.pollStep readReady .read
  | .ackloop => t = s.ackStep
  | .out p v => t = s.outStep p (OutVal.value s v)
  | .inCfg => t = { s.didRead .data with cfg := s.readValue .data, ctl := .init 6 }
  | .cfgOr m => t = { s with cfg := cfgWith m s.cfg, ctl := .init 7 }
  | .regirq line dest => t = ((s.emit (.irqRegister line dest)).register).toIdle
  | .istat => t = s.istatStep
  | .idata => t = ((s.didRead .data).storeByte (s.readValue .data)).counterStep
  | .decode => t = s.decodeStep
  | _ => False

theorem request_effect {u : State}
    (h : s.refused = false ∧ ((s.ctl = .idle ∧ u = t) ∨ (s.ctl ≠ .idle ∧ s = t)))
    (hu : u = s.takeOffer.enterInit ∨ (s.irqRegistered = true ∧ u = s.takeOffer.enterIrq.istatStep) ∨
        (∃ r, u = s.takeOffer.raiseRefuse r) ∨ u = s.takeOffer) : RequestEffect s t := by
  rcases h.2 with ⟨hc, rfl⟩ | ⟨hc, rfl⟩
  · exact .inr ⟨hc, hu⟩
  · exact .inl ⟨hc, rfl⟩

/-- The step of a SEND is that of the entry it stands at (R120). -/
theorem sendStep_effect {c : Byte} {j : Nat} (h : s.enclosingSend = some (c, j)) :
    ∃ m, s.microOp = some m ∧ MicroEffect s (s.sendStep c j) m := by
  unfold State.enclosingSend at h
  cases hc : s.ctl with
  | idle => simp [hc] at h
  | irq k => simp [hc] at h
  | init k =>
    rw [hc] at h
    refine ⟨initSeq s.params k, microOp_init hc, ?_⟩
    fin_cases k <;> simp [sendAt] at h <;> obtain ⟨rfl, rfl⟩ := h <;>
      simp [initSeq, MicroEffect, State.sendStep, OutVal.value]

/-- Everything an instruction can do when it answers a next state. -/
theorem exec_effect (h : exec i s = .next t) :
    s.refused = false ∧ (RequestEffect s t ∨ ∃ m, s.microOp = some m ∧ MicroEffect s t m) := by
  cases i with
  | init => rw [exec_init_next_iff] at h; exact ⟨h.1, .inl (request_effect h (.inl rfl))⟩
  | irq =>
    rw [exec_irq_next_iff] at h
    refine ⟨h.1, .inl (request_effect h ?_)⟩
    cases hr : s.irqRegistered
    · exact .inr (.inr (.inl ⟨_, rfl⟩))
    · exact .inr (.inl ⟨rfl, rfl⟩)
  | reservedRequest =>
    rw [exec_reservedRequest_next_iff] at h
    exact ⟨h.1, .inl (request_effect h (.inr (.inr (.inl ⟨_, rfl⟩))))⟩
  | nopRequest =>
    rw [exec_nopRequest_next_iff] at h
    exact ⟨h.1, .inl (request_effect h (.inr (.inr (.inr rfl))))⟩
  | waitw => rw [exec_waitw_next_iff] at h; exact ⟨h.1, .inr ⟨_, h.2.1, h.2.2.symm⟩⟩
  | waitr => rw [exec_waitr_next_iff] at h; exact ⟨h.1, .inr ⟨_, h.2.1, h.2.2.symm⟩⟩
  | send c =>
    rw [exec_send_next_iff] at h
    obtain ⟨hr, j, hj, rfl⟩ := h
    exact ⟨hr, .inr (sendStep_effect hj)⟩
  | ackloop => rw [exec_ackloop_next_iff] at h; exact ⟨h.1, .inr ⟨_, h.2.1, h.2.2.symm⟩⟩
  | out p v => rw [exec_out_next_iff] at h; exact ⟨h.1, .inr ⟨_, h.2.1, h.2.2.symm⟩⟩
  | inCfg => rw [exec_inCfg_next_iff] at h; exact ⟨h.1, .inr ⟨_, h.2.1, h.2.2.symm⟩⟩
  | cfgOr m => rw [exec_cfgOr_next_iff] at h; exact ⟨h.1, .inr ⟨_, h.2.1, h.2.2.symm⟩⟩
  | regirq line dest => rw [exec_regirq_next_iff] at h; exact ⟨h.1, .inr ⟨_, h.2.1, h.2.2.symm⟩⟩
  | istat => rw [exec_istat_next_iff] at h; exact ⟨h.1, .inr ⟨_, h.2.1, h.2.2.symm⟩⟩
  | idata => rw [exec_idata_next_iff] at h; exact ⟨h.1, .inr ⟨_, h.2.1, h.2.2.symm⟩⟩
  | decode => rw [exec_decode_next_iff] at h; exact ⟨h.1, .inr ⟨_, h.2.1, h.2.2.symm⟩⟩
  | ctrlEnableAux => rw [exec_ctrlEnableAux_next_iff] at h; exact ⟨h.1, .inr ⟨_, h.2.1, h.2.2.symm⟩⟩
  | ctrlReadConfig => rw [exec_ctrlReadConfig_next_iff] at h; exact ⟨h.1, .inr ⟨_, h.2.1, h.2.2.symm⟩⟩
  | ctrlWriteConfig => rw [exec_ctrlWriteConfig_next_iff] at h; exact ⟨h.1, .inr ⟨_, h.2.1, h.2.2.symm⟩⟩
  | ctrlWriteAux => rw [exec_ctrlWriteAux_next_iff] at h; exact ⟨h.1, .inr ⟨_, h.2.1, h.2.2.symm⟩⟩
  | auxSetDefaults => rw [exec_auxSetDefaults_next_iff] at h; exact ⟨h.1, .inr ⟨_, h.2.1, h.2.2.symm⟩⟩
  | auxEnableReporting =>
    rw [exec_auxEnableReporting_next_iff] at h; exact ⟨h.1, .inr ⟨_, h.2.1, h.2.2.symm⟩⟩
  | auxAck =>
    rw [exec_auxAck_next_iff] at h
    exact ⟨h.1, .inr ⟨_, h.2.1.1, by rw [MicroEffect, ackStep_acked h.2.1.2, h.2.2]⟩⟩
  | statusWriteReady b =>
    rw [exec_statusWriteReady_next_iff] at h
    obtain ⟨hr, ⟨hm, rfl, hb⟩, rfl⟩ := h
    exact ⟨hr, .inr ⟨_, hm, (pollStep_ready (decide_eq_true hb)).symm⟩⟩
  | statusReadReady b =>
    rw [exec_statusReadReady_next_iff] at h
    obtain ⟨hr, ⟨hm, rfl, hb⟩, rfl⟩ := h
    exact ⟨hr, .inr ⟨_, hm, (pollStep_ready (decide_eq_true hb)).symm⟩⟩
  | statusIrqData b =>
    rw [exec_statusIrqData_next_iff] at h
    obtain ⟨hr, ⟨hm, rfl, hb⟩, rfl⟩ := h
    exact ⟨hr, .inr ⟨_, hm, (istatStep_data (decide_eq_true hb)).symm⟩⟩
  | cfgIrq12En b =>
    rw [exec_cfgIrq12En_next_iff] at h
    obtain ⟨hr, ⟨hm, -, rfl⟩, rfl⟩ := h
    exact ⟨hr, .inr ⟨_, hm, rfl⟩⟩
  | pktYovf b =>
    rw [exec_pktYovf_next_iff] at h
    exact ⟨h.1, .inr ⟨_, h.2.1.1.1, packet_row_is_decode h.2.1.1 (.inl ⟨h.2.1.2, h.2.2.symm⟩)⟩⟩
  | pktXovf b =>
    rw [exec_pktXovf_next_iff] at h
    exact ⟨h.1, .inr ⟨_, h.2.1.1.1, packet_row_is_decode h.2.1.1 (.inr (.inl ⟨h.2.1.2, h.2.2.symm⟩))⟩⟩
  | pktLbtnPressed b =>
    rw [exec_pktLbtnPressed_next_iff] at h
    exact ⟨h.1, .inr ⟨_, h.2.1.1.1, packet_row_is_decode h.2.1.1 (.inr (.inr (.inl ⟨h.2.1.2, h.2.2.symm⟩)))⟩⟩
  | pktLbtnReleased b =>
    rw [exec_pktLbtnReleased_next_iff] at h
    exact ⟨h.1, .inr ⟨_, h.2.1.1.1,
      packet_row_is_decode h.2.1.1 (.inr (.inr (.inr (.inl ⟨h.2.1.2, h.2.2.symm⟩))))⟩⟩
  | pktRbtnPressed b =>
    rw [exec_pktRbtnPressed_next_iff] at h
    obtain ⟨hr, ⟨hm, hb, hl⟩, ht⟩ := h
    exact ⟨hr, .inr ⟨_, hm.1, packet_row_is_decode hm (.inr (.inr (.inr (.inr (.inl ⟨hb, hl, ht.symm⟩)))))⟩⟩
  | pktRbtnReleased b =>
    rw [exec_pktRbtnReleased_next_iff] at h
    obtain ⟨hr, ⟨hm, hb, hl⟩, ht⟩ := h
    exact ⟨hr, .inr ⟨_, hm.1,
      packet_row_is_decode hm (.inr (.inr (.inr (.inr (.inr (.inl ⟨hb, hl, ht.symm⟩))))))⟩⟩
  | pktMove b =>
    rw [exec_pktMove_next_iff] at h
    obtain ⟨hr, ⟨hm, hb, hl, hr'⟩, ht⟩ := h
    exact ⟨hr, .inr ⟨_, hm.1,
      packet_row_is_decode hm (.inr (.inr (.inr (.inr (.inr (.inr ⟨hb, hl, hr', ht.symm⟩))))))⟩⟩

/-- The selected micro-operation always completes: no state that is not refused stops a busy block (R215). -/
theorem exec_selected_completes {m : Instr} (hr : s.refused = false) (hm : s.microOp = some m) :
    ∃ t, exec m s = .next t := by
  have hs : (∃ k, s.ctl = .init k) ∨ ∃ k, s.ctl = .irq k := by
    cases hc : s.ctl with
    | idle => rw [microOp_idle hc] at hm; cases hm
    | init k => exact .inl ⟨k, rfl⟩
    | irq k => exact .inr ⟨k, rfl⟩
  rcases hs with ⟨k, hc⟩ | ⟨k, hc⟩
  · rw [microOp_init hc] at hm
    have hm' : s.microOp = some (initSeq s.params k) := microOp_init hc
    obtain rfl : initSeq s.params k = m := by simpa using hm
    rcases initSeq_cases s.params k with h | h | h | h | h | h | ⟨p, v, h, -⟩ <;> rw [h] at hm' ⊢ <;>
      exact ⟨_, runIf_selected hr hm'⟩
  · rw [microOp_irq hc] at hm
    have hm' : s.microOp = some (irqSeq k) := microOp_irq hc
    obtain rfl : irqSeq k = m := by simpa using hm
    rcases irqSeq_cases k with h | h | h <;> rw [h] at hm' ⊢ <;> exact ⟨_, runIf_selected hr hm'⟩

/-- Busy, the fetched instruction is the selected micro-operation. -/
theorem microOp_of_busy (hc : s.ctl ≠ .idle) : s.microOp = some s.fetch := by
  cases h : s.ctl with
  | idle => exact absurd h hc
  | init k => simp [State.microOp, State.fetch, h]
  | irq k => simp [State.microOp, State.fetch, h]

/-- Idle, the fetched instruction is a request (R71 to R73). -/
theorem fetch_of_idle (hc : s.ctl = .idle) :
    s.fetch = .init ∨ s.fetch = .irq ∨ s.fetch = .reservedRequest ∨ s.fetch = .nopRequest := by
  have hf : s.fetch = s.offered := by simp [State.fetch, hc]
  rw [hf, State.offered]
  cases s.requests with
  | nil => simp
  | cons r rest =>
    have key : ∀ op : BitVec 2, decodeRequest op = .init ∨ decodeRequest op = .irq ∨
        decodeRequest op = .reservedRequest ∨ decodeRequest op = .nopRequest := by decide
    cases hv : r.valid
    · simp [hv]
    · simpa [hv] using key r.op

/-- The selected micro-operation, run, has its effect. -/
theorem selected_effect {m : Instr} (hm : s.microOp = some m) (h : exec m s = .next t) : MicroEffect s t m := by
  have hs : (∃ k, initSeq s.params k = m) ∨ ∃ k, irqSeq k = m := by
    cases hc : s.ctl with
    | idle => rw [microOp_idle hc] at hm; cases hm
    | init k => rw [microOp_init hc] at hm; exact .inl ⟨k, by simpa using hm⟩
    | irq k => rw [microOp_irq hc] at hm; exact .inr ⟨k, by simpa using hm⟩
  rcases hs with ⟨k, rfl⟩ | ⟨k, rfl⟩
  · rcases initSeq_cases s.params k with e | e | e | e | e | e | ⟨p, v, e, -⟩ <;> rw [e] at h ⊢
    · exact (exec_waitw_next_iff.1 h).2.2.symm
    · exact (exec_waitr_next_iff.1 h).2.2.symm
    · exact (exec_ackloop_next_iff.1 h).2.2.symm
    · exact (exec_inCfg_next_iff.1 h).2.2.symm
    · exact (exec_cfgOr_next_iff.1 h).2.2.symm
    · exact (exec_regirq_next_iff.1 h).2.2.symm
    · exact (exec_out_next_iff.1 h).2.2.symm
  · rcases irqSeq_cases k with e | e | e <;> rw [e] at h ⊢
    · exact (exec_istat_next_iff.1 h).2.2.symm
    · exact (exec_idata_next_iff.1 h).2.2.symm
    · exact (exec_decode_next_iff.1 h).2.2.symm

/-- Everything one step can do when it answers a next state: the reset; idle, the acceptance of what is offered; busy, the
selected micro-operation. -/
theorem step_effect (h : step s = .next t) :
    (s.resetIn.head? = some true ∧ t = s.tick.hardReset) ∨
      (s.resetIn.head? ≠ some true ∧ s.refused = false ∧ s.ctl = .idle ∧
        (t = s.tick.takeOffer.enterInit ∨ (s.irqRegistered = true ∧ t = s.tick.takeOffer.enterIrq.istatStep) ∨
          (∃ r, t = s.tick.takeOffer.raiseRefuse r) ∨ t = s.tick.takeOffer)) ∨
      (s.resetIn.head? ≠ some true ∧ s.refused = false ∧ ∃ m, s.tick.microOp = some m ∧ MicroEffect s.tick t m) := by
  rcases step_next h with ⟨hh, rfl⟩ | ⟨hh, hr, h⟩
  · exact .inl ⟨hh, rfl⟩
  · refine .inr ?_
    by_cases hc : s.ctl = .idle
    · rcases (exec_effect h).2 with (⟨hc', -⟩ | ⟨-, ht⟩) | ⟨m, hm, -⟩
      · exact absurd hc hc'
      · exact .inl ⟨hh, hr, hc, ht⟩
      · rw [microOp_idle (s := s.tick) hc] at hm
        cases hm
    · have hm := microOp_of_busy (s := s.tick) hc
      exact .inr ⟨hh, hr, _, hm, selected_effect hm h⟩

/-- The branches of a selected micro-operation by the entry `ctl` names (R141, R161). -/
theorem microEffect_cases {m : Instr} (hm : s.microOp = some m) (h : MicroEffect s t m) :
    (∃ k, s.ctl = .init k ∧
      ((initSeq s.params k = .waitw ∧ t = s.pollStep writeReady .write) ∨
        (initSeq s.params k = .waitr ∧ t = s.pollStep readReady .read) ∨
        (initSeq s.params k = .ackloop ∧ t = s.ackStep) ∨
        (k = 5 ∧ t = { s.didRead .data with cfg := s.readValue .data, ctl := .init 6 }) ∨
        (k = 6 ∧ t = { s with cfg := cfgWith 0x02 s.cfg, ctl := .init 7 }) ∨
        (k = 23 ∧ t = ((s.emit (.irqRegister s.params.irqLine s.params.irqDest)).register).toIdle) ∨
        (∃ p v, initSeq s.params k = .out p v ∧ outOperandsLegal p v = true ∧ t = s.outStep p (OutVal.value s v)))) ∨
      (s.ctl = .irq 0 ∧ t = s.istatStep) ∨
      (s.ctl = .irq 1 ∧ t = ((s.didRead .data).storeByte (s.readValue .data)).counterStep) ∨
      (s.ctl = .irq 2 ∧ t = s.decodeStep) := by
  cases hc : s.ctl with
  | idle => rw [microOp_idle hc] at hm; cases hm
  | init k =>
    rw [microOp_init hc] at hm
    obtain rfl : initSeq s.params k = m := by simpa using hm
    refine .inl ⟨k, rfl, ?_⟩
    fin_cases k <;> simp [initSeq, MicroEffect, outOperandsLegal] at h ⊢ <;> exact h
  | irq k =>
    rw [microOp_irq hc] at hm
    obtain rfl : irqSeq k = m := by simpa using hm
    right
    fin_cases k <;> simp [irqSeq, MicroEffect] at h ⊢ <;> exact h

end Sys2Proof.Machine
end

