-- ==== Sys2Proof/Laws/PerInstr.lean ====
section
/-! SUPPORT. The family `SlotShape`, one lemma per constructor: the place an instruction is encoded in fixes its format,
and an instruction without a place is a micro-operation (R70, R86). -/

namespace Sys2Proof.Laws.SlotShape

/-- The format of an instruction's row in spec/opcode_table.json, `none` for a `micro_op` row. -/
def formatOf : Instr → Option Format
  | .init | .irq | .reservedRequest | .nopRequest => some .req2
  | .waitw | .waitr | .send _ | .ackloop | .out _ _ | .inCfg | .cfgOr _ | .regirq _ _ | .istat | .idata | .decode => none
  | .ctrlEnableAux | .ctrlReadConfig | .ctrlWriteConfig | .ctrlWriteAux => some .ctrlCmd8
  | .auxSetDefaults | .auxEnableReporting => some .auxCmd8
  | .auxAck => some .auxResp8
  | .statusWriteReady _ | .statusReadReady _ | .statusIrqData _ => some .status8
  | .cfgIrq12En _ => some .cfg8
  | .pktYovf _ | .pktXovf _ | .pktLbtnPressed _ | .pktLbtnReleased _ | .pktRbtnPressed _ | .pktRbtnReleased _
  | .pktMove _ => some .pktStatus8

/-- The encoder puts the instruction in a place of its row's format. -/
def Statement (i : Instr) : Prop := (encode i).map (fun p => p.1.format) = formatOf i

theorem init : Statement .init := rfl
theorem irq : Statement .irq := rfl
theorem reservedRequest : Statement .reservedRequest := rfl
theorem nopRequest : Statement .nopRequest := rfl
theorem waitw : Statement .waitw := rfl
theorem waitr : Statement .waitr := rfl
theorem send (c : Byte) : Statement (.send c) := rfl
theorem ackloop : Statement .ackloop := rfl
theorem out (p : Port) (v : OutVal) : Statement (.out p v) := rfl
theorem inCfg : Statement .inCfg := rfl
theorem cfgOr (mask : Byte) : Statement (.cfgOr mask) := rfl
theorem regirq (line dest : Nat) : Statement (.regirq line dest) := rfl
theorem istat : Statement .istat := rfl
theorem idata : Statement .idata := rfl
theorem decode : Statement .decode := rfl
theorem ctrlEnableAux : Statement .ctrlEnableAux := rfl
theorem ctrlReadConfig : Statement .ctrlReadConfig := rfl
theorem ctrlWriteConfig : Statement .ctrlWriteConfig := rfl
theorem ctrlWriteAux : Statement .ctrlWriteAux := rfl
theorem auxSetDefaults : Statement .auxSetDefaults := rfl
theorem auxEnableReporting : Statement .auxEnableReporting := rfl
theorem auxAck : Statement .auxAck := rfl
theorem statusWriteReady (s : Byte) : Statement (.statusWriteReady s) := rfl
theorem statusReadReady (s : Byte) : Statement (.statusReadReady s) := rfl
theorem statusIrqData (s : Byte) : Statement (.statusIrqData s) := rfl
theorem cfgIrq12En (b : Byte) : Statement (.cfgIrq12En b) := rfl
theorem pktYovf (b : Byte) : Statement (.pktYovf b) := rfl
theorem pktXovf (b : Byte) : Statement (.pktXovf b) := rfl
theorem pktLbtnPressed (b : Byte) : Statement (.pktLbtnPressed b) := rfl
theorem pktLbtnReleased (b : Byte) : Statement (.pktLbtnReleased b) := rfl
theorem pktRbtnPressed (b : Byte) : Statement (.pktRbtnPressed b) := rfl
theorem pktRbtnReleased (b : Byte) : Statement (.pktRbtnReleased b) := rfl
theorem pktMove (b : Byte) : Statement (.pktMove b) := rfl

end Sys2Proof.Laws.SlotShape
end

