-- ==== Sys2Proof/Laws/Runs.lean ====
section
/-! SUPPORT. What a micro-operation can never change (10_state.md R21 to R32), and runs one step at a time, the reset input
low and the bytes read given by the script. -/

namespace Sys2Proof.Machine

variable {s t : State}

theorem emitAckTimeout_cases (s : State) : s.emitAckTimeout = s ∨ ∃ e, s.emitAckTimeout = s.emit e := by
  unfold State.emitAckTimeout
  split
  · exact .inr ⟨_, rfl⟩
  · exact .inl rfl

theorem leftStored_cases (s : State) : s.leftStored = s ∨ s.leftStored = s.pressLeft := by
  unfold State.leftStored
  split <;> simp

theorem rightStored_cases (s : State) : s.rightStored = s ∨ s.rightStored = s.pressRight := by
  unfold State.rightStored
  split <;> simp

/-- The frame of every micro-operation, each register with the entry that may change it. -/
theorem micro_frame {m : Instr} (hm : s.microOp = some m) (h : MicroEffect s t m) :
    t.requests = s.requests ∧ t.params = s.params ∧ t.refused = s.refused ∧ t.refuseReason = s.refuseReason ∧
      t.resetIn = s.resetIn ∧ (s.irqRegistered = true → t.irqRegistered = true) ∧
      (t.irqRegistered ≠ s.irqRegistered → s.ctl = .init 23 ∧ t.irqRegistered = true) ∧
      (t.cfg ≠ s.cfg → s.ctl = .init 5 ∨ s.ctl = .init 6) ∧
      (t.leftPressed ≠ s.leftPressed ∨ t.rightPressed ≠ s.rightPressed → s.ctl = .irq 2) ∧
      (t.buf ≠ s.buf ∨ t.cnt ≠ s.cnt → s.ctl = .irq 1) ∧
      (∃ added, t.trace = s.trace ++ added ∧ stepLabels added = true) := by
  rcases microEffect_cases hm h with ⟨k, hc, h⟩ | ⟨hc, h⟩ | ⟨hc, h⟩ | ⟨hc, h⟩
  · rcases h with ⟨hk, h⟩ | ⟨hk, h⟩ | ⟨hk, h⟩ | ⟨hk, h⟩ | ⟨hk, h⟩ | ⟨hk, h⟩ | ⟨p, v, hk, -, h⟩
    · rcases pollStep_cases s writeReady .write with e | ⟨-, e⟩ | ⟨-, e⟩ <;> rw [h, e] <;>
        simp [stepLabels, Label.isPort]
    · rcases pollStep_cases s readReady .read with e | ⟨-, e⟩ | ⟨-, e⟩ <;> rw [h, e] <;>
        simp [stepLabels, Label.isPort]
    · rcases ackStep_cases s with e | ⟨-, e⟩ | ⟨n, -, -, e⟩ | ⟨n, -, -, e⟩ <;> rw [h, e]
      · simp [stepLabels]
      · simp [stepLabels]
      · rcases emitAckTimeout_cases (s.didRead .data) with e' | ⟨x, e'⟩ <;> rw [e'] <;> simp [stepLabels, Label.isPort]
      · simp [stepLabels]
    · subst h hk; simp [stepLabels, hc]
    · subst h hk; simp [stepLabels, hc]
    · subst h hk; simp [stepLabels, hc]
    · subst h; simp [State.outStep, stepLabels]
  · subst h; simp [stepLabels]
  · subst h; simp [stepLabels, hc]
  · rcases decodeStep_cases s with ⟨-, e⟩ | ⟨-, e⟩ | ⟨-, e⟩ | ⟨-, e⟩ <;> rw [h, e]
    · simp [stepLabels]
    · simp [State.leftClicked, stepLabels, hc]
    · rcases leftStored_cases s with e1 | e1 <;> simp [e1, State.rightClicked, stepLabels, hc]
    · rcases leftStored_cases s with e1 | e1 <;> rw [e1]
      · rcases rightStored_cases s with e2 | e2 <;> simp [e2, State.motionStep, stepLabels, hc]
      · rcases rightStored_cases s.pressLeft with e2 | e2 <;> simp [e2, State.motionStep, stepLabels, hc]

/-! ### Runs, one step at a time -/

variable {n : Nat} {k k' : Fin 24}

theorem step_of_fetch {i : Instr} (hr : s.refused = false) (hn : s.resetIn = []) (hf : s.fetch = i)
    (hx : exec i s = .next t) : step s = .next t := by
  rw [step_runs hr (by simp [hn]), tick_of_nil hn, hf, hx]

theorem step_at {i : Instr} (hr : s.refused = false) (hn : s.resetIn = []) (hc : s.ctl = .init k)
    (hk : initSeq s.params k = i) : step s = exec i s := by
  rw [step_runs hr (by simp [hn]), tick_of_nil hn]
  simp [State.fetch, hc, hk]

theorem run_waitw {v : Byte} {rest : List Byte} (hr : s.refused = false) (hn : s.resetIn = []) (hc : s.ctl = .init k)
    (hk : initSeq s.params k = .waitw) (hs : s.statusIn = v :: rest) (hv : writeReady v = true)
    (hk' : k'.val = k.val + 1) :
    run (n + 1) s =
      run n { s with statusIn := rest, i := 0, ctl := .init k', trace := s.trace ++ [.read .statusCmd v] } := by
  refine run_succ_of_step ((step_at hr hn hc hk).trans (exec_waitw_next_iff.2 ⟨hr, microOp_at hc hk, ?_⟩))
  rw [pollStep_ready (by rw [readValue_status_cons hs]; exact hv), didRead_status_cons hs]
  exact endLoop_at (k := k) (k' := k') hc hk'

theorem run_waitr {v : Byte} {rest : List Byte} (hr : s.refused = false) (hn : s.resetIn = []) (hc : s.ctl = .init k)
    (hk : initSeq s.params k = .waitr) (hs : s.statusIn = v :: rest) (hv : readReady v = true)
    (hk' : k'.val = k.val + 1) :
    run (n + 1) s =
      run n { s with statusIn := rest, i := 0, ctl := .init k', trace := s.trace ++ [.read .statusCmd v] } := by
  refine run_succ_of_step ((step_at hr hn hc hk).trans (exec_waitr_next_iff.2 ⟨hr, microOp_at hc hk, ?_⟩))
  rw [pollStep_ready (by rw [readValue_status_cons hs]; exact hv), didRead_status_cons hs]
  exact endLoop_at (k := k) (k' := k') hc hk'

theorem run_acked {rest : List Byte} (hr : s.refused = false) (hn : s.resetIn = []) (hc : s.ctl = .init k)
    (hk : initSeq s.params k = .ackloop) (hs : s.dataIn = 0xFA :: rest) (hk' : k'.val = k.val + 1) :
    run (n + 1) s =
      run n { s with dataIn := rest, i := 0, ctl := .init k', trace := s.trace ++ [.read .data 0xFA] } := by
  refine run_succ_of_step ((step_at hr hn hc hk).trans (exec_ackloop_next_iff.2 ⟨hr, microOp_at hc hk, ?_⟩))
  rw [ackStep_acked (by rw [readValue_data_cons hs]), didRead_data_cons hs]
  exact endLoop_at (k := k) (k' := k') hc hk'

theorem run_out {p : Port} {v : OutVal} (hr : s.refused = false) (hn : s.resetIn = []) (hc : s.ctl = .init k)
    (hk : initSeq s.params k = .out p v) (hk' : k'.val = k.val + 1) :
    run (n + 1) s = run n { s with ctl := .init k', trace := s.trace ++ [.write p (OutVal.value s v)] } := by
  refine run_succ_of_step ((step_at hr hn hc hk).trans ?_)
  exact runIf_next_iff.2 ⟨hr, microOp_at hc hk, outStep_at hc hk'⟩

/-- The acceptance of an IRQ and its status check, one step (R71, R162). -/
theorem run_irq {q : List Request} {v : Byte} {rest : List Byte} (hr : s.refused = false) (hn : s.resetIn = [])
    (hc : s.ctl = .idle) (hg : s.irqRegistered = true) (hq : s.requests = ⟨true, 2⟩ :: q)
    (hs : s.statusIn = v :: rest) (hv : irqData v = true) :
    run (n + 1) s = run n { s with
      ctl := .irq 1, requests := q, statusIn := rest, trace := s.trace ++ [.read .statusCmd v] } := by
  refine run_succ_of_step
    (step_of_fetch hr hn (i := .irq) (by simp [State.fetch, State.offered, hc, hq, decodeRequest]) ?_)
  have hs' : s.takeOffer.enterIrq.statusIn = v :: rest := hs
  refine (onRequest_idle hr hc).trans ?_
  rw [if_pos hg, istatStep_data (by rw [readValue_status_cons hs']; exact hv), didRead_status_cons hs']
  simp [State.takeOffer, State.enterIrq, hq]

theorem run_istat {v : Byte} {rest : List Byte} (hr : s.refused = false) (hn : s.resetIn = []) (hc : s.ctl = .irq 0)
    (hs : s.statusIn = v :: rest) (hv : irqData v = true) :
    run (n + 1) s = run n { s with ctl := .irq 1, statusIn := rest, trace := s.trace ++ [.read .statusCmd v] } := by
  refine run_succ_of_step (step_of_fetch hr hn (i := .istat) (by simp [State.fetch, hc, irqSeq]) ?_)
  refine exec_istat_next_iff.2 ⟨hr, microOp_irq hc, ?_⟩
  rw [istatStep_data (by rw [readValue_status_cons hs]; exact hv), didRead_status_cons hs]

theorem run_idata {v : Byte} {rest : List Byte} (hr : s.refused = false) (hn : s.resetIn = []) (hc : s.ctl = .irq 1)
    (hd : s.dataIn = v :: rest) :
    run (n + 1) s =
      run n (State.counterStep
        { s with buf := s.buf.set s.cnt v, dataIn := rest, trace := s.trace ++ [.read .data v] }) := by
  refine run_succ_of_step (step_of_fetch hr hn (i := .idata) (by simp [State.fetch, hc, irqSeq]) ?_)
  refine exec_idata_next_iff.2 ⟨hr, microOp_irq hc, ?_⟩
  rw [readValue_data_cons hd, didRead_data_cons hd]
  rfl

/-- One IRQ that stores a byte of the packet (R162 to R164): acceptance with ISTAT, then IDATA. -/
theorem run_irq_byte {q : List Request} {v b : Byte} {rest rest' : List Byte} (hr : s.refused = false)
    (hn : s.resetIn = []) (hc : s.ctl = .idle) (hg : s.irqRegistered = true) (hq : s.requests = ⟨true, 2⟩ :: q)
    (hs : s.statusIn = v :: rest) (hv : irqData v = true) (hd : s.dataIn = b :: rest') :
    run (n + 2) s = run n (State.counterStep
      { s with
        buf := s.buf.set s.cnt b, requests := q, statusIn := rest, dataIn := rest', ctl := .irq 1
        trace := s.trace ++ [.read .statusCmd v, .read .data b] }) := by
  refine (run_irq (n := n + 1) hr hn hc hg hq hs hv).trans ?_
  refine (run_idata (n := n) (by exact hr) (by exact hn) rfl (by exact hd)).trans ?_
  simp

end Sys2Proof.Machine
end

