-- ==== Sys2Proof/Machine/Spelling.lean ====
section
/-! DEFINITION. How this spec writes operations and trace labels (30_encoding.md R87, 00_scope.md R16). Nothing in the
machine reads a spelling. -/

namespace Sys2Proof.Machine

/-- One hexadecimal digit. -/
def hexDigit (n : Nat) : Char := "0123456789ABCDEF".toList.getD n '?'

/-- A byte as `0x..` (00_scope.md R17). -/
def spellByte (b : Byte) : String := "0x" ++ String.ofList [hexDigit (b.toNat / 16), hexDigit (b.toNat % 16)]

/-- A port as read from: `DATA` or `STATUS` (R16). -/
def Port.spellRead : Port → String
  | .data => "DATA"
  | .statusCmd => "STATUS"

/-- A port as written to: `DATA` or `CMD` (R16). -/
def Port.spellWrite : Port → String
  | .data => "DATA"
  | .statusCmd => "CMD"

/-- An event as the traces of 95_test_vectors.md write it. -/
def Event.spell : Event → String
  | .move dx dy => "MOVE(" ++ toString dx ++ "," ++ toString dy ++ ")"
  | .leftClick => "LEFT_CLICK"
  | .rightClick => "RIGHT_CLICK"
  | .pollTimeout .write => "POLL_TIMEOUT(WRITE)"
  | .pollTimeout .read => "POLL_TIMEOUT(READ)"
  | .ackTimeout c => "ACK_TIMEOUT(" ++ spellByte c ++ ")"
  | .irqRegister line dest => "IRQ_REGISTER(" ++ toString line ++ ", " ++ toString dest ++ ")"

/-- A trace label (R16): `R port v`, `W port v` or `EV event`. -/
def Label.spell : Label → String
  | .read p v => "R " ++ Port.spellRead p ++ " " ++ spellByte v
  | .write p v => "W " ++ Port.spellWrite p ++ " " ++ spellByte v
  | .ev e => "EV " ++ e.spell

/-- The operand v of `OUT p, v`. -/
def OutVal.spell : OutVal → String
  | .imm v => spellByte v
  | .cfg => "cfg"

/-- A request line, a micro-operation (R87), or the mnemonic of an encoded byte (spec/opcode_table.json). -/
def spellInstr : Instr → String
  | .init => "INIT"
  | .irq => "IRQ"
  | .reservedRequest => "RESERVED_REQUEST"
  | .nopRequest => "NOP_REQUEST"
  | .waitw => "WAITW"
  | .waitr => "WAITR"
  | .send c => "SEND " ++ spellByte c
  | .ackloop => "ACKLOOP"
  | .out p v => "OUT " ++ Port.spellWrite p ++ ", " ++ OutVal.spell v
  | .inCfg => "IN DATA -> cfg"
  | .cfgOr m => "CFG_OR " ++ spellByte m
  | .regirq line dest => "REGIRQ " ++ toString line ++ ", " ++ toString dest
  | .istat => "ISTAT"
  | .idata => "IDATA"
  | .decode => "DECODE"
  | .ctrlEnableAux => "CTRL_ENABLE_AUX"
  | .ctrlReadConfig => "CTRL_READ_CONFIG"
  | .ctrlWriteConfig => "CTRL_WRITE_CONFIG"
  | .ctrlWriteAux => "CTRL_WRITE_AUX"
  | .auxSetDefaults => "AUX_SET_DEFAULTS"
  | .auxEnableReporting => "AUX_ENABLE_REPORTING"
  | .auxAck => "AUX_ACK"
  | .statusWriteReady _ => "STATUS_WRITE_READY"
  | .statusReadReady _ => "STATUS_READ_READY"
  | .statusIrqData _ => "STATUS_IRQ_DATA"
  | .cfgIrq12En _ => "CFG_IRQ12_EN"
  | .pktYovf _ => "PKT_YOVF"
  | .pktXovf _ => "PKT_XOVF"
  | .pktLbtnPressed _ => "PKT_LBTN_PRESSED"
  | .pktLbtnReleased _ => "PKT_LBTN_RELEASED"
  | .pktRbtnPressed _ => "PKT_RBTN_PRESSED"
  | .pktRbtnReleased _ => "PKT_RBTN_RELEASED"
  | .pktMove _ => "PKT_MOVE"

end Sys2Proof.Machine
end

