-- ==== Sys2Proof/Tests/Slice0.lean ====
section
/-! SUPPORT. The model's own tests. Expected results are the vectors of 95_test_vectors.md (named P-, O-, B-, M-, I-, A-,
C-, Q-, E-) and the rules' own examples. Each runs one step. The witnesses meet the hypotheses of the statements. -/

namespace Sys2Proof.Tests

open Sys2Proof.Machine

/-! ### Small states -/

/-- After an outcome, the next state. -/
def next? : Out → Option State
  | .next t => some t
  | .fault _ => none
  | .refused _ => none

/-- Start-up done (state S0 of 95_test_vectors.md) with POLL_BOUND = 3, and the given script. -/
def s0 (st d : List Byte) : State :=
  { State.reset with irqRegistered := true, params := { pollBound := 3 }, statusIn := st, dataIn := d,
                     trace := [.ev (.irqRegister 12 0)] }

/-- INIT at entry k, with `i` failed reads so far. -/
def si (k : Fin 24) (i : Nat) (st d : List Byte) : State := { s0 st d with ctl := .init k, i := i, trace := [] }

/-- The same with ACK_BOUND = n. -/
def sn (n : Nat) (k : Fin 24) (i : Nat) (d : List Byte) : State :=
  { si k i [] d with params := { pollBound := 3, ackBound := some n } }

/-- IRQ at entry k. -/
def sq (k : Fin 3) (st d : List Byte) : State := { s0 st d with ctl := .irq k, trace := [] }

/-- DECODE of a packet with the given flags. -/
def sd (b0 b1 b2 : Byte) (l r : Bool) : State :=
  { sq 2 [] [] with buf := ⟨b0, b1, b2⟩, leftPressed := l, rightPressed := r }

/-- What a DECODE shows: left flag, right flag, `ctl`, labels. -/
def shown (o : Out) : Option (Bool × Bool × Ctl × List Label) :=
  (next? o).map fun t => (t.leftPressed, t.rightPressed, t.ctl, t.trace)

/-- What a step of INIT or IRQ shows: `ctl`, `i`, labels. -/
def moved (o : Out) : Option (Ctl × Nat × List Label) := (next? o).map fun t => (t.ctl, t.i, t.trace)

/-! ### WellFormed refuses an ill-formed term of each check -/

theorem test_wf_send : (Instr.send 0xFF).wellFormed Params.hardware = false := by decide
theorem test_wf_out_cmd : (Instr.out .statusCmd (.imm 0xA7)).wellFormed Params.hardware = false := by decide
theorem test_wf_out_cmd_cfg : (Instr.out .statusCmd .cfg).wellFormed Params.hardware = false := by decide
theorem test_wf_out_data : (Instr.out .data (.imm 0xFF)).wellFormed Params.hardware = false := by decide
theorem test_wf_out_data_cfg : (Instr.out .data .cfg).wellFormed Params.hardware = true := by decide
theorem test_wf_cfgOr : (Instr.cfgOr 0x01).wellFormed Params.hardware = false := by decide
theorem test_wf_regirq_line : (Instr.regirq 1 0).wellFormed Params.hardware = false := by decide
theorem test_wf_regirq_dest : (Instr.regirq 12 1).wellFormed Params.hardware = false := by decide
theorem test_wf_statusWriteReady : (Instr.statusWriteReady 0x02).wellFormed Params.hardware = false := by decide
theorem test_wf_statusReadReady : (Instr.statusReadReady 0xFE).wellFormed Params.hardware = false := by decide
theorem test_wf_statusIrqData : (Instr.statusIrqData 0xFE).wellFormed Params.hardware = false := by decide
theorem test_wf_cfgIrq12En : (Instr.cfgIrq12En 0xFD).wellFormed Params.hardware = false := by decide
theorem test_wf_pktYovf : (Instr.pktYovf 0x7F).wellFormed Params.hardware = false := by decide
theorem test_wf_pktXovf : (Instr.pktXovf 0xBF).wellFormed Params.hardware = false := by decide
theorem test_wf_pktLbtnPressed : (Instr.pktLbtnPressed 0x41).wellFormed Params.hardware = false := by decide
theorem test_wf_pktLbtnReleased : (Instr.pktLbtnReleased 0x80).wellFormed Params.hardware = false := by decide
theorem test_wf_pktRbtnPressed : (Instr.pktRbtnPressed 0x42).wellFormed Params.hardware = false := by decide
theorem test_wf_pktRbtnReleased : (Instr.pktRbtnReleased 0x02).wellFormed Params.hardware = false := by decide
theorem test_wf_pktMove : (Instr.pktMove 0x40).wellFormed Params.hardware = false := by decide

/-! ### Decoding: each encoded row by a word written from 30_encoding.md, ignored bits set where there are any -/

theorem test_decode_init : decode .request 0b01 = some .init := by decide
theorem test_decode_irq : decode .request 0b10 = some .irq := by decide
theorem test_decode_reserved : decode .request 0b11 = some .reservedRequest := by decide
theorem test_decode_nop : decode .request 0b00 = some .nopRequest := by decide
theorem test_decodeRequest_agrees :
    ∀ op : BitVec 2, decode .request (op.setWidth 8) = some (decodeRequest op) := by decide
theorem test_decode_ctrlEnableAux : decode .ctrlCmd 0b10101000 = some .ctrlEnableAux := by decide
theorem test_decode_ctrlReadConfig : decode .ctrlCmd 0b00100000 = some .ctrlReadConfig := by decide
theorem test_decode_ctrlWriteConfig : decode .ctrlCmd 0b01100000 = some .ctrlWriteConfig := by decide
theorem test_decode_ctrlWriteAux : decode .ctrlCmd 0b11010100 = some .ctrlWriteAux := by decide
theorem test_decode_auxSetDefaults : decode .auxCmd 0b11110110 = some .auxSetDefaults := by decide
theorem test_decode_auxEnableReporting : decode .auxCmd 0b11110100 = some .auxEnableReporting := by decide
theorem test_decode_auxAck : decode .auxResp 0b11111010 = some .auxAck := by decide
theorem test_decode_not_ack : decode .auxResp 0b11111110 = none := by decide
theorem test_decode_statusWriteReady : decode .statusWrite 0b11111101 = some (.statusWriteReady 0xFD) := by decide
theorem test_decode_statusReadReady : decode .statusRead 0b00000011 = some (.statusReadReady 0x03) := by decide
theorem test_decode_statusIrqData : decode .statusIrq 0b00100001 = some (.statusIrqData 0x21) := by decide
theorem test_decode_spurious : decode .statusIrq 0b00011100 = none := by decide
theorem test_decode_cfgIrq12En : decode .cfg 0b01000111 = some (.cfgIrq12En 0x47) := by decide
theorem test_decode_pktYovf : decode .pktY 0b10001000 = some (.pktYovf 0x88) := by decide
theorem test_decode_pktXovf : decode .pktX 0b01001000 = some (.pktXovf 0x48) := by decide
theorem test_decode_pktLbtnPressed : decode .pktLeft 0b00001001 = some (.pktLbtnPressed 0x09) := by decide
theorem test_decode_pktLbtnReleased : decode .pktLeft 0b00111110 = some (.pktLbtnReleased 0x3E) := by decide
theorem test_decode_pktRbtnPressed : decode .pktRight 0b00001010 = some (.pktRbtnPressed 0x0A) := by decide
theorem test_decode_pktRbtnReleased : decode .pktRight 0b00111101 = some (.pktRbtnReleased 0x3D) := by decide
theorem test_decode_pktMove : decode .pktMotion 0b00111000 = some (.pktMove 0x38) := by decide
theorem test_decode_overflow_is_no_move : decode .pktMotion 0b11000000 = none := by decide
theorem test_decodeTableWord : decodeTableWord 8 0xD4 = some .ctrlWriteAux ∧ decodeTableWord 8 0x1D4 = none := by decide
theorem test_withFetchWord_runs_the_word :
    next? (step (State.reset.withFetchWord 8 0xD4)) = next? (exec .ctrlWriteAux (State.reset.withFetchWord 8 0xD4)) := by
  decide

/-! ### Requests -/

theorem test_init_Q3 : (next? (exec .init State.reset)).map (·.ctl) = some (.init 0) := by decide
theorem test_init_busy_is_held_Q4 : next? (exec .init (si 16 0 [] [])) = some (si 16 0 [] []) := by decide
theorem test_irq_Q2 : (next? (exec .irq State.reset)).map (·.refuseReason) = some (some .irqBeforeRegister) := by decide
/-- R160's example: the accepting step reads the status (R71). -/
theorem test_irq_accepts_and_reads_status : moved (exec .irq { s0 [0x01] [0x08] with trace := [] }) =
    some (.irq 1, 0, [.read .statusCmd 0x01]) := by decide
theorem test_irq_spurious_I1 : next? (exec .irq { s0 [0x00] [] with requests := [⟨true, 2⟩] }) =
    some { s0 [] [] with trace := [.ev (.irqRegister 12 0), .read .statusCmd 0x00] } := by decide
theorem test_reserved_Q1 :
    (next? (exec .reservedRequest State.reset)).map (·.refuseReason) = some (some .reservedRequest) := by decide
theorem test_nop_Q5 : next? (exec .nopRequest State.reset) = some State.reset := by decide

/-! ### Wait/Poll -/

theorem test_waitw_P2 : moved (exec .waitw (si 0 0 [0xFD] [])) = some (.init 1, 0, [.read .statusCmd 0xFD]) := by decide
theorem test_waitw_P4_last_read :
    moved (exec .waitw (si 0 2 [0x02] [])) =
      some (.init 1, 0, [.read .statusCmd 0x02, .ev (.pollTimeout .write)]) := by decide
theorem test_waitr_P7 : moved (exec .waitr (si 4 0 [0x03] [])) = some (.init 5, 0, [.read .statusCmd 0x03]) := by decide
theorem test_waitr_P8_first_read :
    moved (exec .waitr (si 4 0 [0xFE] [])) = some (.init 4, 1, [.read .statusCmd 0xFE]) := by decide
theorem test_statusWriteReady :
    moved (exec (.statusWriteReady 0xFD) (si 0 1 [0xFD] [])) = some (.init 1, 0, [.read .statusCmd 0xFD]) := by decide
theorem test_statusReadReady :
    moved (exec (.statusReadReady 0x01) (si 15 1 [0x01] [])) = some (.init 16, 0, [.read .statusCmd 0x01]) := by decide

/-! ### Command protocol -/

theorem test_ackloop_A6 :
    moved (exec .ackloop (sn 1 22 0 [0xFB])) = some (.init 23, 0, [.read .data 0xFB, .ev (.ackTimeout 0xF4)]) := by decide
theorem test_ackloop_A3 : moved (exec .ackloop (si 16 0 [] [0x00])) = some (.init 16, 0, [.read .data 0x00]) := by decide
theorem test_auxAck_A1 : moved (exec .auxAck (si 16 0 [] [0xFA])) = some (.init 17, 0, [.read .data 0xFA]) := by decide
theorem test_send_gateway : moved (exec (.send 0xF4) (si 18 0 [] [])) = some (.init 19, 0, [.write .statusCmd 0xD4]) := by
  decide
theorem test_send_byte : moved (exec (.send 0xF6) (si 14 0 [] [])) = some (.init 15, 0, [.write .data 0xF6]) := by decide

/-! ### Initialization -/

theorem test_out_cmd : moved (exec (.out .statusCmd (.imm 0x60)) (si 8 0 [] [])) =
    some (.init 9, 0, [.write .statusCmd 0x60]) := by decide
theorem test_out_cfg_C2 : moved (exec (.out .data .cfg) { si 10 0 [] [] with cfg := 0x47 }) =
    some (.init 11, 0, [.write .data 0x47]) := by decide
theorem test_inCfg : (next? (exec .inCfg (si 5 0 [] [0x45]))).map (fun t => (t.cfg, t.ctl, t.trace)) =
    some (0x45, .init 6, [.read .data 0x45]) := by decide
theorem test_cfgOr_C2 : (next? (exec (.cfgOr 0x02) { si 6 0 [] [] with cfg := 0x45 })).map (fun t => (t.cfg, t.trace)) =
    some (0x47, []) := by decide
theorem test_cfgOr_C4 : (next? (exec (.cfgOr 0x02) { si 6 0 [] [] with cfg := 0xFD })).map (·.cfg) = some 0xFF := by decide
theorem test_cfgIrq12En_C3 :
    (next? (exec (.cfgIrq12En 0x47) { si 6 0 [] [] with cfg := 0x47 })).map (fun t => (t.cfg, t.ctl)) =
      some (0x47, .init 7) := by decide
theorem test_regirq : (next? (exec (.regirq 12 0) { si 23 0 [] [] with irqRegistered := false })).map
    (fun t => (t.ctl, t.irqRegistered, t.trace)) = some (.idle, true, [.ev (.irqRegister 12 0)]) := by decide
theorem test_ctrlEnableAux : moved (exec .ctrlEnableAux (si 1 0 [] [])) = some (.init 2, 0, [.write .statusCmd 0xA8]) := by
  decide
theorem test_ctrlReadConfig : moved (exec .ctrlReadConfig (si 3 0 [] [])) = some (.init 4, 0, [.write .statusCmd 0x20]) := by
  decide
theorem test_ctrlWriteConfig : moved (exec .ctrlWriteConfig (si 8 0 [] [])) = some (.init 9, 0, [.write .statusCmd 0x60]) := by
  decide
theorem test_ctrlWriteAux : moved (exec .ctrlWriteAux (si 18 0 [] [])) = some (.init 19, 0, [.write .statusCmd 0xD4]) := by
  decide
theorem test_auxSetDefaults : moved (exec .auxSetDefaults (si 14 0 [] [])) = some (.init 15, 0, [.write .data 0xF6]) := by
  decide
theorem test_auxEnableReporting : moved (exec .auxEnableReporting (si 20 0 [] [])) =
    some (.init 21, 0, [.write .data 0xF4]) := by decide

/-! ### Packets -/

theorem test_istat_I2 : next? (exec .istat (sq 0 [0xFE] [])) =
    some { s0 [] [] with trace := [.read .statusCmd 0xFE] } := by decide
theorem test_istat_data : moved (exec .istat (sq 0 [0x01] [])) = some (.irq 1, 0, [.read .statusCmd 0x01]) := by decide
theorem test_statusIrqData_I4 :
    moved (exec (.statusIrqData 0x21) (sq 0 [0x21] [])) = some (.irq 1, 0, [.read .statusCmd 0x21]) := by decide
theorem test_idata_I3 : (next? (exec .idata (sq 1 [] [0x55]))).map (fun t => (t.buf.b0, t.cnt, t.ctl)) =
    some (0x55, 1, .idle) := by decide
theorem test_idata_I5 : (next? (exec .idata { sq 1 [] [0xF6] with cnt := 2, buf := ⟨0x08, 0x0A, 0⟩ })).map
    (fun t => (t.buf, t.cnt, t.ctl)) = some (⟨0x08, 0x0A, 0xF6⟩, 0, .irq 2) := by decide
theorem test_decode_B4 : shown (exec .decode (sd 0x08 0x03 0xFD true true)) =
    some (false, true, .idle, [.ev .leftClick]) := by decide
theorem test_decode_B10 : shown (exec .decode (sd 0x09 0x03 0xFD false true)) =
    some (true, false, .idle, [.ev .rightClick]) := by decide
theorem test_pktYovf_O6 : shown (exec (.pktYovf 0x88) (sd 0x88 0x7F 0x80 true true)) = some (true, true, .idle, []) := by
  decide
theorem test_pktXovf_O4 : shown (exec (.pktXovf 0x49) (sd 0x49 0 0 false false)) = some (false, false, .idle, []) := by
  decide
theorem test_pktLbtnPressed_B9 : shown (exec (.pktLbtnPressed 0x09) (sd 0x09 0x03 0xFD false false)) =
    some (true, false, .idle, [.ev (.move 3 (-3))]) := by decide
theorem test_pktLbtnReleased_B7 : shown (exec (.pktLbtnReleased 0x0A) (sd 0x0A 0x03 0xFD true false)) =
    some (false, false, .idle, [.ev .leftClick]) := by decide
theorem test_pktRbtnPressed_B13 : shown (exec (.pktRbtnPressed 0x0B) (sd 0x0B 0x03 0xFD false false)) =
    some (true, true, .idle, [.ev (.move 3 (-3))]) := by decide
theorem test_pktRbtnReleased_B12 : shown (exec (.pktRbtnReleased 0x09) (sd 0x09 0x03 0xFD true true)) =
    some (true, false, .idle, [.ev .rightClick]) := by decide
theorem test_pktMove_M4 : shown (exec (.pktMove 0x08) (sd 0x08 0x80 0x7F false false)) =
    some (false, false, .idle, [.ev (.move (-128) 127)]) := by decide
theorem test_pktMove_O7 : shown (exec (.pktMove 0x38) (sd 0x38 0xFF 0xFF false false)) =
    some (false, false, .idle, [.ev (.move (-1) (-1))]) := by decide

/-! ### Spelling (R16, R87) -/

theorem test_spell_labels :
    [Label.read .statusCmd 0x01, .read .data 0xFA, .write .statusCmd 0xD4, .write .data 0xF4,
     .ev (.move 10 (-10)), .ev (.irqRegister 12 0)].map Label.spell =
    ["R STATUS 0x01", "R DATA 0xFA", "W CMD 0xD4", "W DATA 0xF4", "EV MOVE(10,-10)", "EV IRQ_REGISTER(12, 0)"] := by
  decide
theorem test_spell_instructions :
    [Instr.out .statusCmd (.imm 0xA8), .out .data .cfg, .inCfg, .cfgOr 0x02, .send 0xF6, .regirq 12 0].map spellInstr =
    ["OUT CMD, 0xA8", "OUT DATA, cfg", "IN DATA -> cfg", "CFG_OR 0x02", "SEND 0xF6", "REGIRQ 12, 0"] := by decide
theorem test_event_codes : (Event.move 0 0).code = 1 ∧ Event.leftClick.code = 2 ∧ Event.rightClick.code = 3 ∧
    (Event.pollTimeout .read).code = 4 ∧ (Event.ackTimeout 0).code = 5 ∧ (Event.irqRegister 12 0).code = 6 := by decide
theorem test_causes : (Event.pollTimeout .read).cause = some 1 ∧ packetCause 0x80 = some 2 ∧
    (Event.ackTimeout 0xF6).cause = some 3 ∧ packetCause 0x3F = none := by decide
theorem test_addresses : Label.address Params.hardware (.read .data 0) = some 0x60 ∧
    Label.address Params.hardware (.write .statusCmd 0) = some 0x64 := by decide

/-! ### Witnesses: for each statement with hypotheses, states and operands that meet them, clause by clause -/

theorem witness_DecodeOfEncode : (Instr.pktMove 0x3F).wellFormed Params.hardware = true ∧
    encode (.pktMove 0x3F) = some (.pktMotion, 0x3F) := by decide
theorem witness_EncodeOfDecode : decode .statusWrite 0xFD = some (.statusWriteReady 0xFD) := by decide
theorem witness_InitAccepted : State.reset.refused = false ∧ State.reset.ctl = .idle ∧
    (s0 [] []).refused = false ∧ (s0 [] []).ctl = .idle ∧ (s0 [] []).irqRegistered = true := by decide
theorem witness_IrqAccepted :
    (∀ s ∈ [s0 [0xFF] [], s0 [0xFE] []], s.refused = false ∧ s.ctl = .idle ∧ s.irqRegistered = true) ∧
    bitOf ((s0 [0xFF] []).readValue .statusCmd) 0 = true ∧ bitOf ((s0 [0xFE] []).readValue .statusCmd) 0 = false ∧
    State.reset.refused = false ∧ State.reset.ctl = .idle ∧ State.reset.irqRegistered = false ∧
    State.reset.resetIn.head? ≠ some true := by decide
theorem witness_ReservedRequestSetsRefused : State.reset.refused = false ∧ State.reset.ctl = .idle ∧
    State.reset.resetIn.head? ≠ some true := by decide
theorem witness_NoRequestStaysIdle : (s0 [] []).refused = false ∧ (s0 [] []).ctl = .idle := by decide
theorem witness_BusyBlockHoldsRequests :
    let s := { si 16 0 [] [0x00] with requests := [⟨true, 2⟩] }
    s.refused = false ∧ s.ctl ≠ .idle ∧ (next? (step s)).isSome = true := by decide
theorem witness_RefusedStateHasNoStep : (State.reset.raiseRefuse .reservedRequest).refused = true ∧
    (State.reset.raiseRefuse .reservedRequest).resetIn.head? ≠ some true := by decide
theorem witness_PortReadFrame : (s0 [0x01] [0xFA]).statusIn = 0x01 :: [] ∧ (s0 [0x01] [0xFA]).dataIn = 0xFA :: [] := by
  decide
theorem witness_WaitwStep :
    (∀ s ∈ [si 0 0 [0xFD] [], si 0 2 [0x02] [], si 0 1 [0x02] []], s.refused = false ∧ s.ctl = .init 0) ∧
    (∀ s ∈ [si 19 0 [0xFD] [], si 19 2 [0x02] []], s.refused = false ∧ s.ctl = .init 19) ∧
    bitOf ((si 0 0 [0xFD] []).readValue .statusCmd) 1 = false ∧
    bitOf ((si 0 2 [0x02] []).readValue .statusCmd) 1 = true ∧ (si 0 2 [0x02] []).i + 1 = (si 0 2 [] []).params.pollBound ∧
    bitOf ((si 0 1 [0x02] []).readValue .statusCmd) 1 = true ∧ (si 0 1 [0x02] []).i + 1 ≠ (si 0 1 [] []).params.pollBound :=
  by decide
theorem witness_WaitrStep :
    (∀ s ∈ [si 4 0 [0x03] [], si 4 2 [0xFE] [], si 4 1 [0x00] []], s.refused = false ∧ s.ctl = .init 4) ∧
    (∀ s ∈ [si 21 0 [0x01] [], si 21 2 [0x02] []], s.refused = false ∧ s.ctl = .init 21) ∧
    bitOf ((si 4 0 [0x03] []).readValue .statusCmd) 0 = true ∧
    bitOf ((si 4 2 [0xFE] []).readValue .statusCmd) 0 = false ∧ (si 4 2 [0xFE] []).i + 1 = (si 4 2 [] []).params.pollBound ∧
    bitOf ((si 4 1 [0x00] []).readValue .statusCmd) 0 = false ∧ (si 4 1 [0x00] []).i + 1 ≠ (si 4 1 [] []).params.pollBound :=
  by decide
theorem witness_StatusRowsComplete :
    ((si 0 0 [0xFD] []).refused = false ∧ (si 0 0 [0xFD] []).readValue .statusCmd = 0xFD ∧ (si 0 0 [0xFD] []).ctl = .init 0 ∧
      initSeq (si 0 0 [0xFD] []).params 0 = .waitw ∧ (0xFD : Byte) &&& 0x02 = 0x00) ∧
    ((si 4 0 [0x03] []).refused = false ∧ (si 4 0 [0x03] []).readValue .statusCmd = 0x03 ∧ (si 4 0 [0x03] []).ctl = .init 4 ∧
      initSeq (si 4 0 [0x03] []).params 4 = .waitr ∧ (0x03 : Byte) &&& 0x01 = 0x01) ∧
    ((sq 0 [0xFF] []).refused = false ∧ (sq 0 [0xFF] []).readValue .statusCmd = 0xFF ∧ (sq 0 [0xFF] []).ctl = .irq 0 ∧
      (0xFF : Byte) &&& 0x01 = 0x01) := by decide
theorem witness_PollEndsWithinBound :
    (∀ s ∈ [si 0 0 [] [], si 0 2 [] []], s.refused = false ∧ true ∉ s.resetIn ∧ s.ctl = .init 0 ∧
      initSeq s.params 0 = .waitw ∧ s.i < s.params.pollBound) ∧
    (∀ s ∈ [si 21 0 [] [], si 21 2 [] []], s.refused = false ∧ true ∉ s.resetIn ∧ s.ctl = .init 21 ∧
      initSeq s.params 21 = .waitr ∧ s.i < s.params.pollBound) := by decide
theorem witness_PollTimesOutAfterExactlyBound :
    (let s := si 0 0 [0x02, 0x02, 0x02] []
     s.refused = false ∧ s.resetIn = [] ∧ s.ctl = .init 0 ∧ s.i = 0 ∧ 1 ≤ s.params.pollBound ∧
      [(0x02 : Byte), 0x02, 0x02].length = s.params.pollBound ∧ s.statusIn = [0x02, 0x02, 0x02] ++ [] ∧
      initSeq s.params 0 = .waitw ∧ ∀ v ∈ [(0x02 : Byte), 0x02, 0x02], bitOf v 1 = true) ∧
    (let s := si 4 0 [0x00, 0xFE, 0x02] []
     s.refused = false ∧ s.resetIn = [] ∧ s.ctl = .init 4 ∧ s.i = 0 ∧ 1 ≤ s.params.pollBound ∧
      [(0x00 : Byte), 0xFE, 0x02].length = s.params.pollBound ∧ s.statusIn = [0x00, 0xFE, 0x02] ++ [] ∧
      initSeq s.params 4 = .waitr ∧ ∀ v ∈ [(0x00 : Byte), 0xFE, 0x02], bitOf v 0 = false) := by decide
theorem witness_AckloopStep :
    (∀ s ∈ [si 16 0 [] [0xFA], si 16 0 [] [0xFE], sn 2 16 1 [0xFB], sn 2 16 0 [0xF9]],
      s.refused = false ∧ s.ctl = .init 16) ∧
    (si 22 0 [] [0xFA]).refused = false ∧ (si 22 0 [] [0xFA]).ctl = .init 22 ∧
    (si 16 0 [] [0xFA]).readValue .data = 0xFA ∧
    (si 16 0 [] [0xFE]).readValue .data ≠ 0xFA ∧ (si 16 0 [] [0xFE]).params.ackBound = none ∧
    (sn 2 16 1 [0xFB]).readValue .data ≠ 0xFA ∧ (sn 2 16 1 [0xFB]).params.ackBound = some 2 ∧
      (sn 2 16 1 [0xFB]).i + 1 = 2 ∧
    (sn 2 16 0 [0xF9]).readValue .data ≠ 0xFA ∧ (sn 2 16 0 [0xF9]).params.ackBound = some 2 ∧
      (sn 2 16 0 [0xF9]).i + 1 ≠ 2 := by decide
theorem witness_AckByteEndsLoop : (si 22 0 [] [0xFA]).refused = false ∧ (si 22 0 [] [0xFA]).ctl = .init 22 ∧
    initSeq (si 22 0 [] [0xFA]).params 22 = .ackloop ∧ (si 22 0 [] [0xFA]).readValue .data = 0xFA := by decide
theorem witness_SendIsItsExpansion :
    (∀ p ∈ [(si 11 0 [0x00] [], (11 : Fin 24), 0), (si 16 0 [] [0xFA], 16, 5)],
      p.1.refused = false ∧ p.1.ctl = .init p.2.1 ∧ p.2.2 < 6 ∧ p.2.1.val = 11 + p.2.2) ∧
    (∀ p ∈ [(si 17 0 [0x00] [], (17 : Fin 24), 0), (si 22 0 [] [0xFA], 22, 5)],
      p.1.refused = false ∧ p.1.ctl = .init p.2.1 ∧ p.2.2 < 6 ∧ p.2.1.val = 17 + p.2.2) := by decide
theorem witness_AckloopHangsWithoutAcknowledge :
    let s := si 16 0 [] [0x00, 0xFB]
    s.refused = false ∧ s.resetIn = [] ∧ s.params.ackBound = none ∧ s.ctl = .init 16 ∧
      initSeq s.params 16 = .ackloop ∧ s.dataIn = [0x00, 0xFB] ++ [] ∧ ∀ v ∈ [(0x00 : Byte), 0xFB], v ≠ 0xFA := by decide
theorem witness_BoundedAckloopTimesOut :
    (let s := sn 2 16 0 [0x00, 0x00]
     s.refused = false ∧ s.resetIn = [] ∧ s.params.ackBound = some 2 ∧ s.ctl = .init 16 ∧ s.i = 0 ∧
      s.dataIn = [0x00, 0x00] ++ [] ∧ ∀ v ∈ [(0x00 : Byte), 0x00], v ≠ 0xFA) ∧
    (let s := sn 1 22 0 [0xFB]
     s.refused = false ∧ s.resetIn = [] ∧ s.params.ackBound = some 1 ∧ s.ctl = .init 22 ∧ s.i = 0 ∧
      s.dataIn = [0xFB] ++ [] ∧ ∀ v ∈ [(0xFB : Byte)], v ≠ 0xFA) := by decide
theorem witness_OutWritesOnePort : ∀ k ∈ [(1 : Fin 24), 3, 8, 10, 12, 14, 18, 20],
    (si k 0 [] []).refused = false ∧ (si k 0 [] []).ctl = .init k := by decide
theorem witness_ControllerCommandsWritten : ∀ k ∈ [(1 : Fin 24), 3, 8, 12, 18],
    (si k 0 [] []).refused = false ∧ (si k 0 [] []).ctl = .init k := by decide
theorem witness_MouseCommandsWritten : ∀ k ∈ [(14 : Fin 24), 20],
    (si k 0 [] []).refused = false ∧ (si k 0 [] []).ctl = .init k := by decide
theorem witness_InReadsConfigurationByte : (si 5 0 [] [0x45]).refused = false ∧ (si 5 0 [] [0x45]).ctl = .init 5 := by
  decide
theorem witness_CfgOrSetsOnlyIrq12Enable : (si 6 0 [] []).refused = false ∧ (si 6 0 [] []).ctl = .init 6 := by decide
theorem witness_CfgRowCompletesAsCfgOr : (si 6 0 [] []).refused = false ∧ (si 6 0 [] []).ctl = .init 6 := by decide
theorem witness_RegirqRegistersTheLine : (si 23 0 [] []).refused = false ∧ (si 23 0 [] []).ctl = .init 23 := by decide
theorem witness_InitLeavesAssemblerAlone : (si 10 0 [] []).ctl.isInit = true ∧
    (si 10 0 [] []).resetIn.head? ≠ some true ∧ (next? (step (si 10 0 [] []))).isSome = true := by decide
theorem witness_IdealInitRun :
    let s := { s0 [0x00, 0x00, 0x01, 0x00, 0x00, 0x00, 0x00, 0x01, 0x00, 0x00, 0x01] [0x45, 0xFA, 0xFA] with
               requests := [⟨true, 1⟩] }
    s.refused = false ∧ s.resetIn = [] ∧ s.ctl = .idle ∧ s.requests.head? = some ⟨true, 1⟩ ∧
      s.statusIn = [0x00, 0x00, 0x01, 0x00, 0x00, 0x00, 0x00, 0x01, 0x00, 0x00, 0x01] ++ [] ∧
      s.dataIn = [0x45, 0xFA, 0xFA] ++ [] := by decide
theorem witness_BoundedInitEnds :
    let s := { sn 2 22 1 [] with trace := [.ev (.irqRegister 12 0)] }
    s.Inv ∧ s.refused = false ∧ true ∉ s.resetIn ∧ s.ctl = .init 22 ∧ s.params.ackBound = some 2 := by decide
theorem witness_IstatChecksStatus :
    (∀ s ∈ [sq 0 [0x21] [], sq 0 [0xFE] []], s.refused = false ∧ s.ctl = .irq 0) ∧
    bitOf ((sq 0 [0x21] []).readValue .statusCmd) 0 = true ∧ bitOf ((sq 0 [0xFE] []).readValue .statusCmd) 0 = false := by
  decide
theorem witness_IdataStoresAndCounts : ∀ c : Fin 3, let s := { sq 1 [] [0x55] with cnt := c }
    s.refused = false ∧ s.ctl = .irq 1 ∧ s.cnt = c := by decide
theorem witness_DecodeDispatchesOneEvent :
    (∀ s ∈ [sd 0x80 0 0 true true, sd 0x40 0 0 true true, sd 0x3E 0 0 true true, sd 0x3D 0 0 true true,
        sd 0x3C 0 0 false false], s.refused = false ∧ s.ctl = .irq 2) ∧
    bitOf 0x80 7 = true ∧ bitOf 0x40 6 = true ∧
    (bitOf 0x3E 7 = false ∧ bitOf 0x3E 6 = false ∧ bitOf 0x3E 0 = false) ∧
    (bitOf 0x3D 7 = false ∧ bitOf 0x3D 6 = false ∧ bitOf 0x3D 0 = true ∧ bitOf 0x3D 1 = false) ∧
    (bitOf 0x3C 7 = false ∧ bitOf 0x3C 6 = false ∧ (sd 0x3C 0 0 false false).leftPressed = false ∧
      (sd 0x3C 0 0 false false).rightPressed = false) := by decide
theorem witness_PacketRowsAreDecodeBranches :
    (∀ b ∈ [(0x80 : Byte), 0x40, 0x01, 0x3E, 0x3F, 0x3D, 0x3C],
      (sd b 0 0 false false).refused = false ∧ (sd b 0 0 false false).ctl = .irq 2 ∧ (sd b 0 0 false false).buf.b0 = b) ∧
    (0x80 : Byte) &&& 0x80 = 0x80 ∧ (0x40 : Byte) &&& 0x40 = 0x40 ∧ (0x01 : Byte) &&& 0xC1 = 0x01 ∧
    (0x3E : Byte) &&& 0xC1 = 0x00 ∧ ((0x3F : Byte) &&& 0xC2 = 0x02 ∧ bitOf 0x3F 0 = true) ∧
    ((0x3D : Byte) &&& 0xC2 = 0x00 ∧ bitOf 0x3D 0 = true) ∧
    ((0x3C : Byte) &&& 0xC0 = 0x00 ∧ (sd 0x3C 0 0 false false).leftPressed = false ∧
      (sd 0x3C 0 0 false false).rightPressed = false) := by decide
theorem witness_DecodeIgnoresBitsTwoToFive : (0x3D : Byte) &&& 0xC3 = (0x01 : Byte) &&& 0xC3 ∧
    (let s := sd 0 0 0 true true
     (next? (exec .decode { s with buf := { s.buf with b0 := 0x3D } })).isSome = true) := by decide
theorem witness_StatusBitsTwoToSevenIgnored : (0xFD : Byte) &&& 0x03 = (0x01 : Byte) &&& 0x03 ∧
    (next? (exec .waitw { si 0 0 [] [] with statusIn := 0xFD :: [] })).isSome = true ∧
    (next? (exec .waitr { si 4 0 [] [] with statusIn := 0xFD :: [] })).isSome = true ∧
    (next? (exec .istat { sq 0 [] [] with statusIn := 0xFD :: [] })).isSome = true ∧
    (s0 [] []).ctl = .idle ∧ (s0 [] []).irqRegistered = true ∧
    (next? (exec .irq { s0 [] [] with statusIn := 0xFD :: [] })).isSome = true := by decide
theorem witness_IrqEventsAreClicksOrMoves :
    (∀ s ∈ [sq 0 [0x00] [], sq 1 [] [0x55], sd 0x80 0 0 true true, sd 0x40 0 0 true true, sd 0x08 0 0 false false,
        { s0 [0x00] [] with requests := [⟨true, 2⟩] }],
      s.resetIn.head? ≠ some true ∧ (next? (step s)).isSome = true) ∧
    (s0 [0x00] []).ctl = .idle ∧ (s0 [0x00] []).refused = false ∧ (s0 [0x00] []).irqRegistered = true := by decide
theorem witness_IrqEndsWithinThreeSteps :
    (∀ s ∈ [{ s0 [0xFE] [] with requests := [⟨true, 2⟩] }, { s0 [0x01] [0x55] with requests := [⟨true, 2⟩], cnt := 1 },
        { s0 [0x01] [0x55] with requests := [⟨true, 2⟩], cnt := 2 }],
      s.refused = false ∧ true ∉ s.resetIn ∧ s.ctl = .idle ∧ s.irqRegistered = true ∧
        s.requests.head? = some ⟨true, 2⟩) ∧
    (∀ s ∈ [sq 0 [0xFE] [], { sq 0 [0x01] [0x55] with cnt := 1 }, { sq 0 [0x01] [0x55] with cnt := 2 }],
      s.refused = false ∧ true ∉ s.resetIn ∧ s.ctl = .irq 0) ∧
    bitOf ((s0 [0xFE] []).readValue .statusCmd) 0 = false ∧ bitOf ((s0 [0x01] [0x55]).readValue .statusCmd) 0 = true ∧
    bitOf ((sq 0 [0xFE] []).readValue .statusCmd) 0 = false ∧
    bitOf ((sq 0 [0x01] [0x55]).readValue .statusCmd) 0 = true := by decide
theorem witness_RepeatedPacketRepeatsMove :
    let s := { s0 (List.replicate 6 0x01) [0x08, 0x0A, 0xF6, 0x08, 0x0A, 0xF6] with
               requests := List.replicate 6 ⟨true, 2⟩ }
    s.refused = false ∧ s.resetIn = [] ∧ s.irqRegistered = true ∧ s.ctl = .idle ∧ s.cnt = 0 ∧ s.leftPressed = false ∧
      s.rightPressed = false ∧ (0x08 : Byte) &&& 0xC3 = 0x00 ∧ s.requests = List.replicate (3 * 2) ⟨true, 2⟩ ++ [] ∧
      s.statusIn = List.replicate (3 * 2) 0x01 ++ [] ∧
      s.dataIn = (List.replicate 2 [0x08, 0x0A, 0xF6]).flatten ++ [] := by decide
theorem witness_StepRunsSelectedInstruction :
    (∀ s ∈ [{ s0 [] [] with requests := [⟨true, 3⟩] }, { s0 [] [] with requests := [⟨false, 1⟩] }, s0 [] [],
        si 23 0 [] [], sq 2 [] [], { si 0 0 [] [] with resetIn := [false, true] }],
      s.refused = false ∧ s.resetIn.head? ≠ some true) ∧
    decode .request ((3 : BitVec 2).setWidth 8) = some .reservedRequest := by decide
theorem witness_UnselectedInstructionStops :
    (∀ s ∈ [si 0 0 [0x01] [], si 17 0 [] [], si 16 0 [] [0xFB], sd 0x3E 0 0 true true, sq 0 [0xFE] [], s0 [] []],
      s.refused = false) ∧
    (si 0 0 [0x01] []).microOp ≠ some (.out .data (.imm 0xFF)) ∧ (si 0 0 [0x01] []).microOp ≠ some .waitr ∧
    ((si 17 0 [] []).ctl = .init 17 ∧ (0xF6 : Byte) ≠ 0xF4 ∧ ¬17 ≤ 16) ∧
    (∀ k ∈ [(1 : Fin 24), 3, 8, 12, 18, 14, 20, 6], (si 17 0 [] []).ctl ≠ .init k) ∧
    (si 16 0 [] [0xFB]).readValue .data ≠ 0xFA ∧
    ((si 0 0 [0x01] []).microOp = some .waitw ∧ (si 0 0 [0x01] []).readValue .statusCmd ≠ 0x00) ∧
    (si 0 0 [0x01] []).microOp ≠ some .waitr ∧ bitOf 0xFE 0 = false ∧
    ((si 6 0 [] []).ctl = .init 6 ∧ (0x00 : Byte) ≠ (si 6 0 [] []).cfg ||| 0x02) ∧
    ((sd 0x3E 0 0 true true).buf.b0 = 0x3E ∧ bitOf 0x3E 7 = false ∧ bitOf 0x3E 6 = false ∧
      (0x3E : Byte) &&& 0xC1 ≠ 0x01 ∧ (0x3D : Byte) &&& 0xC1 ≠ 0x00 ∧ (0x3E : Byte) &&& 0xC2 ≠ 0x00 ∧
      (0x3D : Byte) &&& 0xC2 ≠ 0x02 ∧ (0x40 : Byte) &&& 0xC0 ≠ 0x00 ∧
      bitOf 0x3E 0 = false ∧ (sd 0x3E 0 0 true true).leftPressed = true) ∧
    ((sd 0x3D 0 0 true true).buf.b0 = 0x3D ∧ bitOf 0x3D 1 = false ∧ (sd 0x3D 0 0 true true).rightPressed = true) ∧
    (si 0 0 [] []).ctl ≠ .irq 2 ∧
    (s0 [] []).ctl = .idle ∧ Instr.pktMove 0x08 ∉ [.init, .irq, .reservedRequest, .nopRequest] := by decide
theorem witness_ResetFromAnyState :
    let s := { si 22 2 [] [] with resetIn := [true], cnt := 2, leftPressed := true, rightPressed := true }
    s.resetIn.head? = some true ∧
      ({ State.reset.raiseRefuse .irqBeforeRegister with resetIn := [true] } : State).resetIn.head? = some true := by decide
/-- R230, R231: reset out of a refused state gives the reset state. -/
theorem test_reset_of_refused :
    next? (step { State.reset.raiseRefuse .irqBeforeRegister with resetIn := [true] }) = some State.reset := by decide
/-- R230: reset in the middle of a wait abandons it without a label. -/
theorem test_reset_of_busy : moved (step { si 4 2 [0x01] [] with resetIn := [true] }) = some (.idle, 0, []) := by decide
theorem witness_StepKeepsInvariant :
    (s0 [] []).Inv ∧ (next? (step (s0 [] []))).isSome = true ∧
    (let s := { sq 1 [] [0x08] with trace := [.ev (.irqRegister 12 0)], cnt := 2 }
     s.Inv ∧ (next? (step s)).isSome = true) ∧
    (let s := { si 4 2 [0x00] [] with irqRegistered := false }
     s.Inv ∧ (next? (step s)).isSome = true) := by decide
theorem witness_StepAddsOneTransactionThenOneEvent : (next? (step (si 0 2 [0x02] []))).isSome = true := by decide
theorem witness_OnlyListedBytesWritten :
    let s := { si 10 0 [] [] with irqRegistered := false, cfg := 0xFF }
    s.Inv ∧ moved (step s) = some (.init 11, 0, s.trace ++ [.write .data 0xFF]) ∧
      Label.write .data 0xFF ∈ [Label.write .data 0xFF] := by decide
theorem witness_OnlyListedBytesWritten_commands :
    ∀ e ∈ [((1 : Fin 24), Port.statusCmd, (0xA8 : Byte)), (3, .statusCmd, 0x20), (8, .statusCmd, 0x60),
        (12, .statusCmd, 0xD4), (18, .statusCmd, 0xD4), (14, .data, 0xF6), (20, .data, 0xF4)],
      State.Inv { si e.1 0 [] [] with irqRegistered := false, cfg := 0x02 } ∧
      (next? (step { si e.1 0 [] [] with irqRegistered := false, cfg := 0x02 })).map (·.trace) =
        some ([] ++ [.write e.2.1 e.2.2]) := by decide
theorem witness_OperationsDoNotInterleave :
    (si 23 0 [] []).ctl.isInit = true ∧ (sq 2 [] []).ctl.isIrq = true ∧ (s0 [] []).ctl = .idle ∧
    ∀ s ∈ [si 23 0 [] [], sq 2 [] [], s0 [] [], { s0 [0x01] [] with requests := [⟨true, 2⟩] }], (next? (step s)).isSome = true := by decide
theorem witness_AssemblerWrittenOnlyByItsRules :
    (next? (exec .decode (sd 0x08 0 0 true false))).map (·.leftPressed) = some false ∧
    (next? (exec .idata (sq 1 [] [0x55]))).map (·.cnt) = some 1 := by decide
theorem witness_SequencerWrittenOnlyByItsRules :
    (next? (exec .inCfg (si 5 0 [] [0x45]))).map (·.cfg) = some 0x45 ∧
    (next? (exec (.regirq 12 0) { si 23 0 [] [] with irqRegistered := false })).map (·.irqRegistered) = some true ∧
    (next? (exec .reservedRequest State.reset)).map (·.refused) = some true := by decide
theorem witness_BusyStepsAndRestStays :
    (si 16 0 [] []).refused = false ∧ (si 16 0 [] []).ctl ≠ .idle ∧
    (s0 [] []).refused = false ∧ (s0 [] []).ctl = .idle ∧ (s0 [] []).requests = [] ∧ (s0 [] []).resetIn = [] := by decide

end Sys2Proof.Tests
end

section
/-! PROOF. The Wait/Poll unit (40_poll.md): one step of a wait, and the bound on a whole wait (R100 to R104). -/

namespace Sys2Proof.Machine

/-- The micro-operation whose timeout has this kind (R82). -/
def PollKind.wait : PollKind → Instr
  | .write => .waitw
  | .read => .waitr

/-- The status test of that micro-operation (R78, R101, R103). -/
def PollKind.ready : PollKind → Byte → Bool
  | .write => writeReady
  | .read => readReady

/-- The block stands at a wait of this kind, entry k of `INIT_SEQ`, and no reset is to come. -/
structure State.Polling (s : State) (k : Fin 24) (kind : PollKind) : Prop where
  notRefused : s.refused = false
  noReset : true ∉ s.resetIn
  ctl_eq : s.ctl = .init k
  entry : initSeq s.params k = kind.wait

/-- What a wait that began in s and read the status bytes vs has done when t stands at entry k' (R104). -/
structure State.PollEnded (s t : State) (k' : Fin 24) (kind : PollKind) (vs : List Byte) : Prop where
  ctl_eq : t.ctl = .init k'
  i_eq : t.i = 0
  trace_eq : t.trace = s.trace ++ vs.map (Label.read .statusCmd) ∨
    t.trace = s.trace ++ vs.map (Label.read .statusCmd) ++ [.ev (.pollTimeout kind)]

variable {s t : State} {k k' : Fin 24} {kind : PollKind} {vs : List Byte}

/-- A reset input that is never high is not high now. -/
theorem resetIn_head_ne_of_not_mem (h : true ∉ s.resetIn) : s.resetIn.head? ≠ some true :=
  fun hh => h (List.mem_of_head? hh)

/-- WAITW and WAITR, selected, are the common poll loop with their own test (R100). -/
theorem exec_wait (hr : s.refused = false) (hm : s.microOp = some kind.wait) :
    exec kind.wait s = .next (s.pollStep kind.ready kind) := by
  cases kind with
  | write => exact exec_waitw_next_iff.2 ⟨hr, hm, rfl⟩
  | read => exact exec_waitr_next_iff.2 ⟨hr, hm, rfl⟩

theorem State.Polling.step_eq (h : s.Polling k kind) : step s = .next (s.tick.pollStep kind.ready kind) := by
  have hm : s.tick.microOp = some kind.wait := microOp_at h.ctl_eq h.entry
  have hf : s.tick.fetch = kind.wait := by simp [State.fetch, h.ctl_eq, h.entry]
  rw [step_runs h.notRefused (resetIn_head_ne_of_not_mem h.noReset), hf]
  exact exec_wait h.notRefused hm

/-- A read that does not end the wait leaves the block at it (R100). -/
theorem State.Polling.retry (h : s.Polling k kind) : (s.tick.didRead .statusCmd).countRetry.Polling k kind where
  notRefused := by simpa using h.notRefused
  noReset := by simpa using fun hh => h.noReset (List.mem_of_mem_tail hh)
  ctl_eq := by simpa using h.ctl_eq
  entry := by simpa using h.entry

/-- One step of a wait reads one byte and ends the wait, with its timeout or without, or leaves it to be polled again, which
the POLL_BOUND-th read does not (R100 to R103). -/
theorem State.Polling.step_cases (h : s.Polling k kind) (hk : k'.val = k.val + 1) :
    (∃ t, step s = .next t ∧ s.PollEnded t k' kind [s.tick.readValue .statusCmd]) ∨
      (s.i + 1 ≠ s.params.pollBound ∧ step s = .next (s.tick.didRead .statusCmd).countRetry) := by
  have hctl : s.ctl.next = .init k' := by rw [h.ctl_eq, Ctl.next_init hk]
  rcases pollStep_cases s.tick kind.ready kind with e | ⟨-, e⟩ | ⟨hne, e⟩
  · exact .inl ⟨_, e ▸ h.step_eq, by simpa using hctl, rfl, .inl (by simp)⟩
  · exact .inl ⟨_, e ▸ h.step_eq, by simpa using hctl, rfl, .inr (by simp)⟩
  · exact .inr ⟨hne, e ▸ h.step_eq⟩

/-- The reads of a wait that retries once are that read and those of the wait from there on. -/
theorem State.PollEnded.of_retry (h : (s.tick.didRead .statusCmd).countRetry.PollEnded t k' kind vs) :
    s.PollEnded t k' kind (s.tick.readValue .statusCmd :: vs) where
  ctl_eq := h.ctl_eq
  i_eq := h.i_eq
  trace_eq := by simpa using h.trace_eq

/-- A wait with r + 1 reads left ends within them: each read ends it or leaves r reads, and the last one ends it. -/
theorem State.Polling.ends (h : s.Polling k kind) (hk : k'.val = k.val + 1) {r : Nat}
    (hi : s.i + (r + 1) = s.params.pollBound) :
    ∃ vs t, 1 ≤ vs.length ∧ vs.length ≤ r + 1 ∧ run vs.length s = .next t ∧ s.PollEnded t k' kind vs := by
  induction r generalizing s with
  | zero =>
    rcases h.step_cases hk with ⟨t, hstep, hend⟩ | ⟨hne, -⟩
    · exact ⟨_, t, by simp, by simp, run_succ_of_step hstep, hend⟩
    · exact absurd hi hne
  | succ r ih =>
    rcases h.step_cases hk with ⟨t, hstep, hend⟩ | ⟨-, hstep⟩
    · exact ⟨_, t, by simp, by simp, run_succ_of_step hstep, hend⟩
    · obtain ⟨vs, t, -, hlen, hrun, hend⟩ := ih h.retry (by simp; omega)
      exact ⟨s.tick.readValue .statusCmd :: vs, t, by simp, by simpa using hlen,
        (run_succ_of_step hstep).trans hrun, hend.of_retry⟩

/-- Settles O17, by induction on the reads that are left under POLL_BOUND (R104). -/
theorem pollEndsWithinBound : Obligations.PollEndsWithinBound := by
  intro s k k' kind hr hreset hc hkind hi hk
  have hentry : initSeq s.params k = kind.wait := by
    rcases hkind with ⟨he, rfl⟩ | ⟨he, rfl⟩ <;> exact he
  obtain ⟨vs, t, hpos, hlen, hrun, hend⟩ :=
    State.Polling.ends (s := s) ⟨hr, hreset, hc, hentry⟩ hk
      (r := s.params.pollBound - s.i - 1) (by omega)
  exact ⟨vs.length, vs, t, hpos, by omega, hrun, rfl, hend.ctl_eq, hend.i_eq, hend.trace_eq⟩

end Sys2Proof.Machine
end

section
/-! PROOF. The Initialization Sequencer (42_init.md): the configuration byte (R143, R144), what INIT leaves alone (R151) and
its ideal run (R154). -/

namespace Sys2Proof.Machine

/-- The run of INIT that began in s, standing at entry k with no failed read counted: `cfg` is c, the environment still has
the bytes st and d to return, and the trace is now tr. -/
def State.initAt (s : State) (k : Fin 24) (c : Byte) (st d : List Byte) (tr : List Label) : State :=
  { s with ctl := .init k, i := 0, cfg := c, statusIn := st, dataIn := d, trace := tr }

variable {s : State} {n : Nat} {k k' : Fin 24} {c cmd : Byte} {st d : List Byte} {tr : List Label}

/-! ### The configuration byte -/

/-- CFG_OR sets bit 1 and copies every other bit (R84). -/
theorem bitOf_cfgWith_irq12 (b : Byte) (m : Nat) : bitOf (cfgWith 0x02 b) m = (bitOf b m || decide (1 = m)) := by
  have hmask : (0x02 : Byte) = BitVec.twoPow 8 1 := rfl
  simp [bitOf, cfgWith, hmask, BitVec.getLsbD_twoPow]

/-- Settles O27: entry 5 selects IN, which has no test on the byte it reads (R143). -/
theorem inReadsConfigurationByte : Obligations.InReadsConfigurationByte :=
  fun _ hr hc => exec_inCfg_next_iff.2 ⟨hr, microOp_at hc rfl, rfl⟩

/-- Settles O28, by the bits of `cfg OR 0x02` (R144). -/
theorem cfgOrSetsOnlyIrq12Enable : Obligations.CfgOrSetsOnlyIrq12Enable := by
  intro s hr hc
  refine ⟨cfgWith 0x02 s.cfg, exec_cfgOr_next_iff.2 ⟨hr, microOp_at hc rfl, rfl⟩, ?_, fun m hm => ?_⟩
  · rw [bitOf_cfgWith_irq12, decide_eq_true rfl, Bool.or_true]
  · rw [bitOf_cfgWith_irq12, decide_eq_false hm.symm, Bool.or_false]

/-! ### The packet assembler -/

/-- Settles O31: a busy step is the selected micro-operation, whose frame lets `buf` and `cnt` change only at IRQ(1) and
the button flags only at IRQ(2). -/
theorem initLeavesAssemblerAlone : Obligations.InitLeavesAssemblerAlone := by
  intro s t hinit hreset hstep
  have hirq (k : Fin 3) : s.ctl ≠ .irq k := fun hc => by simp [hc, Ctl.isInit] at hinit
  rcases step_effect hstep with ⟨hh, -⟩ | ⟨-, -, hc, -⟩ | ⟨-, -, m, hm, heff⟩
  · exact absurd hh hreset
  · simp [hc, Ctl.isInit] at hinit
  · obtain ⟨-, -, -, -, -, -, -, -, hflags, hbuf, -⟩ := micro_frame hm heff
    have hflags' := mt hflags (hirq 2)
    have hbuf' := mt hbuf (hirq 1)
    simpa [and_assoc] using And.intro hbuf' hflags'

/-! ### The steps of INIT that are no poll, acknowledge loop or write -/

/-- The acceptance of INIT, a step of its own (R140). -/
theorem run_init (hr : s.refused = false) (hn : s.resetIn = []) (hc : s.ctl = .idle)
    (hq : s.requests.head? = some ⟨true, 1⟩) :
    run (n + 1) s = run n (s.takeOffer.initAt 0 s.cfg s.statusIn s.dataIn s.trace) := by
  obtain ⟨q, hq⟩ := List.head?_eq_some_iff.1 hq
  have hf : s.fetch = .init := by simp [State.fetch, State.offered, hc, hq, decodeRequest]
  have hstart : s.takeOffer.enterInit = s.takeOffer.initAt 0 s.cfg s.statusIn s.dataIn s.trace := rfl
  exact run_succ_of_step (step_of_fetch hr hn hf (hstart ▸ onRequest_idle hr hc))

theorem run_inCfg {b : Byte} {rest : List Byte} (hr : s.refused = false) (hn : s.resetIn = []) (hc : s.ctl = .init 5)
    (hd : s.dataIn = b :: rest) :
    run (n + 1) s =
      run n { s with cfg := b, dataIn := rest, ctl := .init 6, trace := s.trace ++ [.read .data b] } := by
  refine run_succ_of_step ((step_at hr hn hc rfl).trans ((inReadsConfigurationByte s hr hc).trans ?_))
  rw [readValue_data_cons hd, didRead_data_cons hd]

theorem run_cfgOr (hr : s.refused = false) (hn : s.resetIn = []) (hc : s.ctl = .init 6) :
    run (n + 1) s = run n { s with cfg := s.cfg ||| 0x02, ctl := .init 7 } :=
  run_succ_of_step ((step_at hr hn hc rfl).trans (exec_cfgOr_next_iff.2 ⟨hr, microOp_at hc rfl, rfl⟩))

theorem run_regirq (hr : s.refused = false) (hn : s.resetIn = []) (hc : s.ctl = .init 23) :
    run (n + 1) s = run n { s with
      irqRegistered := true, ctl := .idle
      trace := s.trace ++ [.ev (.irqRegister s.params.irqLine s.params.irqDest)] } :=
  run_succ_of_step ((step_at hr hn hc rfl).trans (exec_regirq_next_iff.2 ⟨hr, microOp_at hc rfl, rfl⟩))

/-! ### The ideal run of INIT, in the groups of entries of `INIT_SEQ` -/

/-- The six entries from 11 and from 17 are the expansions of `SEND 0xF6` and `SEND 0xF4` (R120, R141). -/
theorem initSeq_send (q : Params) (hk : k = 11 ∧ cmd = 0xF6 ∨ k = 17 ∧ cmd = 0xF4) (j : Fin 6) :
    initSeq q ⟨k.val + j.val, by omega⟩ = (sendExpansion cmd).get j := by
  rcases hk with ⟨rfl, rfl⟩ | ⟨rfl, rfl⟩ <;> fin_cases j <;> rfl

section IdealRun

variable (hr : s.refused = false) (hn : s.resetIn = [])

include hr hn

/-- A WAITW or WAITR whose first read is ready (R101, R103). -/
theorem run_wait_ready {kind : PollKind} {v : Byte} (hwait : initSeq s.params k = kind.wait) (hv : kind.ready v = true)
    (hk' : k'.val = k.val + 1) :
    run (n + 1) (s.initAt k c (v :: st) d tr) = run n (s.initAt k' c st d (tr ++ [.read .statusCmd v])) := by
  cases kind with
  | write => exact run_waitw (s := s.initAt k c (v :: st) d tr) hr hn rfl hwait rfl hv hk'
  | read => exact run_waitr (s := s.initAt k c (v :: st) d tr) hr hn rfl hwait rfl hv hk'

/-- A WAITW whose first read is ready, and the OUT after it, of the byte w: what every write of INIT is made of (R141). -/
theorem run_waitw_out {k₁ : Fin 24} {p : Port} {v : OutVal} {w : Byte}
    (hwait : initSeq s.params k = .waitw) (hout : initSeq s.params k₁ = .out p v)
    (hk₁ : k₁.val = k.val + 1) (hk' : k'.val = k₁.val + 1) (hw : ∀ t : State, t.cfg = c → OutVal.value t v = w) :
    run (n + 2) (s.initAt k c (0x00 :: st) d tr) =
      run n (s.initAt k' c st d (tr ++ [.read .statusCmd 0x00, .write p w])) := by
  rw [run_wait_ready (kind := .write) hr hn hwait rfl hk₁, run_out (s := s.initAt k₁ c st d _) hr hn rfl hout hk',
    hw _ rfl]
  simp [State.initAt]

/-- Entries 4 to 6: the configuration byte b is read, whatever it is, and gets its bit 1 set (R143, R144). -/
theorem run_read_config {b : Byte} :
    run (n + 3) (s.initAt 4 c (0x01 :: st) (b :: d) tr) =
      run n (s.initAt 7 (b ||| 0x02) st d (tr ++ [.read .statusCmd 0x01, .read .data b])) := by
  rw [run_wait_ready (kind := .read) (k' := 5) hr hn rfl rfl rfl, run_inCfg (by exact hr) (by exact hn) rfl rfl,
    run_cfgOr (by exact hr) (by exact hn) rfl]
  simp [State.initAt]

/-- Entries 0 to 10: the auxiliary device is enabled, and the configuration byte b is read and written back with its bit 1
set (R141). -/
theorem run_configure {b : Byte} :
    run (n + 11) (s.initAt 0 c (0x00 :: 0x00 :: 0x01 :: 0x00 :: 0x00 :: st) (b :: d) tr) =
      run n (s.initAt 11 (b ||| 0x02) st d (tr ++
        [.read .statusCmd 0x00, .write .statusCmd 0xA8, .read .statusCmd 0x00, .write .statusCmd 0x20,
         .read .statusCmd 0x01, .read .data b, .read .statusCmd 0x00, .write .statusCmd 0x60,
         .read .statusCmd 0x00, .write .data (b ||| 0x02)])) := by
  rw [run_waitw_out (k := 0) (k₁ := 1) (k' := 2) (w := 0xA8) hr hn rfl rfl rfl rfl fun _ _ => rfl,
    run_waitw_out (k := 2) (k₁ := 3) (k' := 4) (w := 0x20) hr hn rfl rfl rfl rfl fun _ _ => rfl,
    run_read_config hr hn,
    run_waitw_out (k := 7) (k₁ := 8) (k' := 9) (w := 0x60) hr hn rfl rfl rfl rfl fun _ _ => rfl,
    run_waitw_out (k := 9) (k₁ := 10) (k' := 11) hr hn rfl rfl rfl rfl fun _ hcfg => hcfg]
  simp

/-- A SEND whose waits are ready and whose command is acknowledged at once (R120). -/
theorem run_send_acked (hk : k = 11 ∧ cmd = 0xF6 ∨ k = 17 ∧ cmd = 0xF4) (hk' : k'.val = k.val + 6) :
    run (n + 6) (s.initAt k c (0x00 :: 0x00 :: 0x01 :: st) (0xFA :: d) tr) =
      run n (s.initAt k' c st d (tr ++
        [.read .statusCmd 0x00, .write .statusCmd 0xD4, .read .statusCmd 0x00, .write .data cmd,
         .read .statusCmd 0x01, .read .data 0xFA])) := by
  have hseq := initSeq_send s.params hk
  rw [run_waitw_out (k := k) (k' := ⟨k.val + 2, by omega⟩) (w := 0xD4) hr hn (hseq 0) (hseq 1) rfl rfl fun _ _ => rfl,
    run_waitw_out (k := ⟨k.val + 2, by omega⟩) (k' := ⟨k.val + 4, by omega⟩) (w := cmd) hr hn (hseq 2) (hseq 3)
      rfl rfl fun _ _ => rfl,
    run_wait_ready (kind := .read) (k := ⟨k.val + 4, by omega⟩) (k' := ⟨k.val + 5, by omega⟩) hr hn (hseq 4) rfl rfl,
    run_acked (s := s.initAt ⟨k.val + 5, by omega⟩ c st (0xFA :: d) _) hr hn rfl (hseq 5) rfl hk']
  simp [State.initAt]

end IdealRun

/-- Settles O32: the acceptance, the configuration, the two SENDs and the registration, each by its own lemma (R154). -/
theorem idealInitRun : Obligations.IdealInitRun := by
  intro s b rest rest' hr hn hc hq hst hd
  have hr' : s.takeOffer.refused = false := hr
  have hn' : s.takeOffer.resetIn = [] := hn
  rw [run_init hr hn hc hq, hst, hd]
  simp only [List.cons_append, List.nil_append]
  rw [run_configure hr' hn', run_send_acked (k' := 17) hr' hn' (.inl ⟨rfl, rfl⟩) rfl,
    run_send_acked (k' := 23) hr' hn' (.inr ⟨rfl, rfl⟩) rfl, run_regirq (by exact hr') (by exact hn') rfl]
  simp [run, State.initAt, State.takeOffer, hc]

end Sys2Proof.Machine
end

section
/-! PROOF. The Packet Assembler and Decoder (43_packet.md): the status check (R162), what the steps of an IRQ add to the
trace (R178), and the runs of whole packets (R181). -/

namespace Sys2Proof.Machine

variable {s t : State}

/-! ### The status check -/

/-- Settles O34: ISTAT's test of the status byte is its bit 0 (R162). -/
theorem istatChecksStatus : Obligations.IstatChecksStatus := by
  intro s hr hc
  have hexec : exec .istat s = .next s.istatStep := exec_istat_next_iff.2 ⟨hr, microOp_irq hc, rfl⟩
  rw [hexec, ← irqData_eq_bit]
  refine ⟨fun hb => ?_, fun hb => ?_⟩
  · rw [istatStep_data hb]
  · rw [istatStep_spurious hb]
    rfl

/-! ### The trace of an IRQ -/

@[simp] theorem State.leftStored_trace (s : State) : s.leftStored.trace = s.trace := by
  rcases leftStored_cases s with h | h <;> rw [h]
  rfl

@[simp] theorem State.rightStored_trace (s : State) : s.rightStored.trace = s.trace := by
  rcases rightStored_cases s with h | h <;> rw [h]
  rfl

theorem State.motionStep_trace (s : State) :
    s.motionStep.trace = s.trace ++ [.ev (.move (sext8 s.buf.b1) (sext8 s.buf.b2))] := rfl

theorem overflow_eq_true_iff (b : Byte) : overflow b = true ↔ bitOf b 7 = true ∨ bitOf b 6 = true := by
  rw [overflow, Bool.or_eq_true]

theorem overflow_eq_false_iff (b : Byte) : overflow b = false ↔ bitOf b 7 = false ∧ bitOf b 6 = false := by
  rw [overflow, Bool.or_eq_false_iff]

/-- A packet that is not discarded gives one event, from the branch of the decode that it takes (R170). -/
theorem decodeStep_emits_one_event (ho : overflow s.buf.b0 = false) :
    ∃ e, s.decodeStep.trace = s.trace ++ [.ev e] ∧ (e = .leftClick ∨ e = .rightClick ∨ ∃ dx dy, e = .move dx dy) := by
  rcases decodeStep_cases s with ⟨ho', -⟩ | ⟨-, h⟩ | ⟨-, h⟩ | ⟨-, h⟩
  · simp [ho] at ho'
  · exact ⟨.leftClick, by simp [h, State.leftClicked], .inl rfl⟩
  · exact ⟨.rightClick, by simp [h, State.rightClicked], .inr (.inl rfl)⟩
  · exact ⟨_, by rw [h, State.motionStep_trace, State.rightStored_trace, State.leftStored_trace],
      .inr (.inr ⟨_, _, rfl⟩)⟩

/-- A step that begins at an entry of `IRQ_SEQ` is that entry's micro-operation (R161). -/
theorem step_effect_at_irq {k : Fin 3} (hreset : s.resetIn.head? ≠ some true) (hc : s.ctl = .irq k)
    (h : step s = .next t) : MicroEffect s.tick t (irqSeq k) := by
  rcases step_next h with ⟨hh, -⟩ | ⟨-, -, hexec⟩
  · exact absurd hh hreset
  · have hf : s.tick.fetch = irqSeq k := by simp [State.fetch, hc]
    exact selected_effect (microOp_irq hc) (hf ▸ hexec)

/-- A step that accepts an IRQ performs its status check (R71, R160). -/
theorem step_accepts_irq (hreset : s.resetIn.head? ≠ some true) (hc : s.ctl = .idle) (hg : s.irqRegistered = true)
    (hq : s.requests.head? = some ⟨true, 2⟩) (h : step s = .next t) : t = s.tick.takeOffer.enterIrq.istatStep := by
  obtain ⟨q, hq⟩ := List.head?_eq_some_iff.1 hq
  rcases step_next h with ⟨hh, -⟩ | ⟨-, -, hexec⟩
  · exact absurd hh hreset
  · have hf : s.tick.fetch = .irq := by simp [State.fetch, State.offered, hc, hq, decodeRequest]
    rw [hf, exec_irq_next_iff] at hexec
    simpa [hc, hg, eq_comm] using hexec.2

/-- Settles O40, entry by entry: the status check, the data read, and the decode's one event or none (R178). -/
theorem irqEventsAreClicksOrMoves : Obligations.IrqEventsAreClicksOrMoves := by
  intro s t hreset h
  refine ⟨?_, fun hc => ?_, fun hc => ?_⟩
  · rintro (⟨hc, -, hg, hq⟩ | hc)
    · rw [step_accepts_irq hreset hc hg hq h]
      exact State.istatStep_trace _
    · rw [show t = s.tick.istatStep from step_effect_at_irq hreset hc h]
      exact State.istatStep_trace _
  · rw [show t = _ from step_effect_at_irq hreset hc h]
    rfl
  · rw [show t = s.tick.decodeStep from step_effect_at_irq hreset hc h, ← overflow_eq_true_iff, ← and_imp,
      ← overflow_eq_false_iff]
    refine ⟨fun ho => ?_, fun ho => decodeStep_emits_one_event (s := s.tick) ho⟩
    rw [decodeStep_overflow (s := s.tick) ho]
    rfl

/-! ### Runs of plain packets -/

/-- The run of IRQs that began in s, between two operations or before the decode: the buffer is buf, the counter c, the
control state m, the requester still offers q, the environment still has st and d to return, and the trace is now tr. -/
def State.packetAt (s : State) (buf : PacketBuf) (c : Fin 3) (m : Ctl) (q : List Request) (st d : List Byte)
    (tr : List Label) : State :=
  { s with buf := buf, cnt := c, ctl := m, requests := q, statusIn := st, dataIn := d, trace := tr }

/-- The labels of the seven steps of a packet that is decoded to its motion. -/
def packetLabels (b0 b1 b2 : Byte) : List Label :=
  [.read .statusCmd 0x01, .read .data b0, .read .statusCmd 0x01, .read .data b1, .read .statusCmd 0x01, .read .data b2,
   .ev (.move b1.toInt b2.toInt)]

/-- A plain packet: no overflow, both buttons up (R171, R80). -/
theorem mask_plain (b : Byte) :
    b &&& 0xC3 = 0x00 ↔ overflow b = false ∧ leftBit b = false ∧ rightBit b = false := by
  revert b; decide

/-- A plain packet with both flags false goes to the motion step past both button steps (R172 to R176). -/
theorem decodeStep_plain (hb : s.buf.b0 &&& 0xC3 = 0x00) (hl : s.leftPressed = false) (hr : s.rightPressed = false) :
    s.decodeStep = s.motionStep := by
  obtain ⟨ho, hleft, hright⟩ := (mask_plain _).1 hb
  simp [State.decodeStep, State.leftStep, State.rightStep, ho, hleft, hright, hl, hr]

section PlainPackets

variable {n : Nat} {c c' : Fin 3} {m : Ctl} {buf : PacketBuf} {b b0 b1 b2 : Byte} {q : List Request} {st d : List Byte}
  {tr : List Label} (hr : s.refused = false) (hn : s.resetIn = [])

include hr hn

/-- One IRQ stores a byte, and is followed by the decode when that byte is the third (R162 to R164). -/
theorem run_packet_byte (hg : s.irqRegistered = true) (hc' : nextCount c = c')
    (hm : (if c.val < 2 then Ctl.idle else .irq 2) = m) :
    run (n + 2) (s.packetAt buf c .idle (⟨true, 2⟩ :: q) (0x01 :: st) (b :: d) tr) =
      run n (s.packetAt (buf.set c b) c' m q st d (tr ++ [.read .statusCmd 0x01, .read .data b])) := by
  subst hc' hm
  exact run_irq_byte (s := s.packetAt buf c .idle (⟨true, 2⟩ :: q) (0x01 :: st) (b :: d) tr) hr hn rfl hg rfl rfl rfl rfl

theorem run_packet_decode (hl : s.leftPressed = false) (hright : s.rightPressed = false) (hb : b0 &&& 0xC3 = 0x00) :
    run (n + 1) (s.packetAt ⟨b0, b1, b2⟩ c (.irq 2) q st d tr) =
      run n (s.packetAt ⟨b0, b1, b2⟩ c .idle q st d (tr ++ [.ev (.move b1.toInt b2.toInt)])) := by
  refine run_succ_of_step (step_of_fetch (i := .decode) hr hn rfl (exec_decode_next_iff.2 ⟨hr, rfl, ?_⟩))
  refine (decodeStep_plain (by exact hb) (by exact hl) (by exact hright)).trans ?_
  rw [State.motionStep, sext8_eq_toInt, sext8_eq_toInt]
  rfl

theorem run_plain_packet (hg : s.irqRegistered = true) (hl : s.leftPressed = false) (hright : s.rightPressed = false)
    (hb : b0 &&& 0xC3 = 0x00) :
    run (n + 7) (s.packetAt buf 0 .idle (⟨true, 2⟩ :: ⟨true, 2⟩ :: ⟨true, 2⟩ :: q) (0x01 :: 0x01 :: 0x01 :: st)
        (b0 :: b1 :: b2 :: d) tr) =
      run n (s.packetAt ⟨b0, b1, b2⟩ 0 .idle q st d (tr ++ packetLabels b0 b1 b2)) := by
  have hbuf : ((buf.set 0 b0).set 1 b1).set 2 b2 = ⟨b0, b1, b2⟩ := rfl
  rw [run_packet_byte (c' := 1) (m := .idle) hr hn hg rfl rfl, run_packet_byte (c' := 2) (m := .idle) hr hn hg rfl rfl,
    run_packet_byte (c' := 0) (m := .irq 2) hr hn hg rfl rfl, hbuf, run_packet_decode hr hn hl hright hb]
  simp [packetLabels]

/-- Copies of a plain packet repeat its labels (R181). -/
theorem run_plain_packets (hg : s.irqRegistered = true) (hl : s.leftPressed = false) (hright : s.rightPressed = false)
    (hb : b0 &&& 0xC3 = 0x00) :
    ∃ buf', run (7 * n) (s.packetAt buf 0 .idle (List.replicate (3 * n) ⟨true, 2⟩ ++ q)
        (List.replicate (3 * n) 0x01 ++ st) ((List.replicate n [b0, b1, b2]).flatten ++ d) tr) =
      .next (s.packetAt buf' 0 .idle q st d (tr ++ (List.replicate n (packetLabels b0 b1 b2)).flatten)) := by
  induction n generalizing buf tr with
  | zero => exact ⟨buf, by simp [run]⟩
  | succ n ih =>
    obtain ⟨buf', hrest⟩ := ih (buf := ⟨b0, b1, b2⟩) (tr := tr ++ packetLabels b0 b1 b2)
    refine ⟨buf', ?_⟩
    rw [Nat.mul_succ, Nat.mul_succ]
    simp only [List.replicate_succ, List.flatten_cons, List.cons_append, List.nil_append]
    rw [run_plain_packet hr hn hg hl hright hb, hrest, List.append_assoc]

end PlainPackets

/-- The one event of a packet that is decoded to its motion. -/
theorem packetLabels_events (b0 b1 b2 : Byte) :
    (packetLabels b0 b1 b2).filter (fun l => !l.isPort) = [.ev (.move b1.toInt b2.toInt)] := rfl

/-- Settles O42: the copies run one after another, by induction on their number, and each gives its one MOVE (R181). -/
theorem repeatedPacketRepeatsMove : Obligations.RepeatedPacketRepeatsMove := by
  intro n s b0 b1 b2 q rest rest' hr hn hg hc hcnt hl hright hb hq hst hd
  have hs : s = s.packetAt s.buf 0 .idle (List.replicate (3 * n) ⟨true, 2⟩ ++ q) (List.replicate (3 * n) 0x01 ++ rest)
      ((List.replicate n [b0, b1, b2]).flatten ++ rest') s.trace := by
    rw [State.packetAt, ← hq, ← hst, ← hd, ← hcnt, ← hc]
  obtain ⟨buf', hrun⟩ := run_plain_packets hr hn hg hl hright hb
  refine ⟨_, (congrArg (run (7 * n)) hs).trans hrun, rfl, rfl, hl, hright, rfl, rfl, rfl, ?_⟩
  simp [State.packetAt, List.filter_flatten, packetLabels_events]

end Sys2Proof.Machine
end

section
/-! PROOF. Exceptions (60_exceptions.md): with a bounded acknowledge loop every INIT ends (R204). -/

namespace Sys2Proof.Machine

/-- What the steps of an INIT keep and its end needs: it runs, no reset is to come, and both loops have a bound (R11, R12). -/
structure State.LoopsBounded (s : State) : Prop where
  notRefused : s.refused = false
  noReset : true ∉ s.resetIn
  legal : s.params.legal = true
  ackBounded : s.params.ackBound ≠ none

/-- INIT stands at entry k, with the retry counter below its bound (R28). -/
structure State.Initializing (s : State) (k : Fin 24) : Prop extends s.LoopsBounded where
  ctl_eq : s.ctl = .init k
  i_lt : s.i < s.retryLimit

/-- INIT has run to its end (R150). -/
structure State.Initialized (s : State) : Prop where
  ctl_eq : s.ctl = .idle
  registered : s.irqRegistered = true
  notRefused : s.refused = false

/-- The entry that s stands at has ended in t, or has counted a failed read that was not its last one (R28). -/
def State.EndsOrRetries (s t : State) : Prop :=
  (t.ctl = s.ctl.next ∧ t.i = 0) ∨ (t.ctl = s.ctl ∧ t.i = s.i + 1 ∧ s.i + 1 < s.retryLimit)

variable {s t : State} {k : Fin 24}

/-! ### The bound of the retry counter -/

theorem retryLimit_pos (h : s.params.legal = true) : 0 < s.retryLimit := by
  obtain ⟨hpoll, hack⟩ : 1 ≤ s.params.pollBound ∧ 1 ≤ s.params.ackBound.getD 1 := by
    cases ha : s.params.ackBound <;> simpa [Params.legal, ha] using h
  unfold State.retryLimit
  split <;> omega

theorem retryLimit_congr (hc : t.ctl = s.ctl) (hp : t.params = s.params) : t.retryLimit = s.retryLimit := by
  simp [State.retryLimit, State.microOp, hc, hp]

/-! ### One entry of INIT -/

/-- A poll ends or retries, since its bound ends it (R100). -/
theorem pollStep_endsOrRetries (ready : Byte → Bool) (kind : PollKind) (hlim : s.retryLimit = s.params.pollBound)
    (hi : s.i < s.retryLimit) : s.EndsOrRetries (s.pollStep ready kind) := by
  rcases pollStep_cases s ready kind with e | ⟨-, e⟩ | ⟨hne, e⟩ <;> rw [e]
  · exact .inl ⟨by simp, rfl⟩
  · exact .inl ⟨by simp, rfl⟩
  · exact .inr ⟨by simp, by simp, by omega⟩

/-- A bounded acknowledge loop ends or retries: only without a bound does a read leave the counter as it is (R122, R123). -/
theorem ackStep_endsOrRetries (hb : s.params.ackBound ≠ none) (hlim : s.retryLimit = s.params.ackBound.getD 1)
    (hi : s.i < s.retryLimit) : s.EndsOrRetries s.ackStep := by
  rcases ackStep_cases s with e | ⟨hnone, -⟩ | ⟨n, -, -, e⟩ | ⟨n, hn, hne, e⟩
  · exact .inl ⟨by simp [e], by simp [e]⟩
  · exact absurd hnone hb
  · refine .inl ⟨?_, by simp [e]⟩
    rcases emitAckTimeout_cases (s.didRead .data) with e' | ⟨x, e'⟩ <;> simp [e, e']
  · rw [hn, Option.getD_some] at hlim
    exact .inr ⟨by simp [e], by simp [e], by omega⟩

/-- An entry that does not loop ends, and finds the retry counter 0 (R28). -/
theorem endsOrRetries_of_next (hlim : s.retryLimit = 1) (hi : s.i < s.retryLimit) (hctl : t.ctl = s.ctl.next)
    (hsame : t.i = s.i) : s.EndsOrRetries t :=
  .inl ⟨hctl, by omega⟩

/-- Every entry of INIT ends or retries (R141): the loops by their bounds, the other entries in their one step. -/
theorem initEntry_endsOrRetries (hc : s.ctl = .init k) (hb : s.params.ackBound ≠ none) (hi : s.i < s.retryLimit)
    (h : MicroEffect s t (initSeq s.params k)) : s.EndsOrRetries t := by
  have hm := microOp_init hc
  rcases microEffect_cases hm h with ⟨j, hj, h⟩ | ⟨hj, -⟩ | ⟨hj, -⟩ | ⟨hj, -⟩
  · obtain rfl : k = j := by simpa [hc] using hj
    rcases h with ⟨e, rfl⟩ | ⟨e, rfl⟩ | ⟨e, rfl⟩ | ⟨rfl, rfl⟩ | ⟨rfl, rfl⟩ | ⟨rfl, rfl⟩ | ⟨p, v, e, -, rfl⟩
    · exact pollStep_endsOrRetries _ _ (by simp [State.retryLimit, hm, e]) hi
    · exact pollStep_endsOrRetries _ _ (by simp [State.retryLimit, hm, e]) hi
    · exact ackStep_endsOrRetries hb (by simp [State.retryLimit, hm, e]) hi
    · exact endsOrRetries_of_next (by simp [State.retryLimit, hm, initSeq]) hi (by simp [hc, Ctl.next]) (by simp)
    · exact endsOrRetries_of_next (by simp [State.retryLimit, hm, initSeq]) hi (by simp [hc, Ctl.next]) (by simp)
    · exact endsOrRetries_of_next (by simp [State.retryLimit, hm, initSeq]) hi (by simp [hc, Ctl.next]) (by simp)
    · exact endsOrRetries_of_next (by simp [State.retryLimit, hm, e]) hi (by simp [State.outStep])
        (by simp [State.outStep])
  all_goals simp [hc] at hj

/-- The last entry registers the line (R150). -/
theorem initEntry_registers (h : MicroEffect s t (initSeq s.params 23)) : t.irqRegistered = true := by
  obtain rfl : t = ((s.emit (.irqRegister s.params.irqLine s.params.irqDest)).register).toIdle := h
  rfl

/-! ### One step of INIT, and its whole run -/

theorem State.LoopsBounded.of_micro {m : Instr} (h : s.LoopsBounded) (hm : s.tick.microOp = some m)
    (heff : MicroEffect s.tick t m) : t.LoopsBounded := by
  obtain ⟨-, hparams, hrefused, -, hreset, -⟩ := micro_frame hm heff
  refine ⟨hrefused.trans h.notRefused, ?_, hparams ▸ h.legal, hparams ▸ h.ackBounded⟩
  rw [hreset]
  exact fun hmem => h.noReset (List.mem_of_mem_tail hmem)

/-- A step of INIT runs the entry that it stands at. -/
theorem State.Initializing.step_effect (h : s.Initializing k) :
    ∃ t, step s = .next t ∧ MicroEffect s.tick t (initSeq s.params k) := by
  have hm : s.tick.microOp = some (initSeq s.params k) := microOp_init h.ctl_eq
  obtain ⟨t, hexec⟩ := exec_selected_completes (s := s.tick) h.notRefused hm
  have hfetch : s.tick.fetch = initSeq s.params k := by simp [State.fetch, h.ctl_eq]
  refine ⟨t, ?_, selected_effect hm hexec⟩
  rw [step_runs h.notRefused (resetIn_head_ne_of_not_mem h.noReset), hfetch, hexec]

/-- A step of INIT ends it, or moves it to the next entry, or leaves fewer reads at this one. -/
theorem State.Initializing.step_cases (h : s.Initializing k) :
    ∃ t, step s = .next t ∧
      (t.Initialized ∨ (∃ k' : Fin 24, k'.val = k.val + 1 ∧ t.Initializing k') ∨
        (t.Initializing k ∧ t.retryLimit - t.i < s.retryLimit - s.i)) := by
  obtain ⟨t, hstep, heff⟩ := h.step_effect
  have hm : s.tick.microOp = some (initSeq s.params k) := microOp_init h.ctl_eq
  have hbounds : t.LoopsBounded := h.toLoopsBounded.of_micro hm heff
  have hends : s.EndsOrRetries t := initEntry_endsOrRetries (s := s.tick) h.ctl_eq h.ackBounded h.i_lt heff
  refine ⟨t, hstep, ?_⟩
  rcases hends with ⟨hnext, hi⟩ | ⟨hctl, hi, hlt⟩
  · rw [h.ctl_eq] at hnext
    by_cases hk : k.val + 1 < 24
    · refine .inr (.inl ⟨⟨k.val + 1, hk⟩, rfl, hbounds, hnext.trans (Ctl.next_init rfl), ?_⟩)
      exact hi ▸ retryLimit_pos hbounds.legal
    · obtain rfl : k = 23 := Fin.ext (by simp; omega)
      exact .inl ⟨hnext, initEntry_registers (s := s.tick) heff, hbounds.notRefused⟩
  · obtain ⟨-, hparams, -⟩ := micro_frame hm heff
    have hlim : t.retryLimit = s.retryLimit := retryLimit_congr hctl hparams
    exact .inr (.inr ⟨⟨hbounds, hctl.trans h.ctl_eq, by omega⟩, by omega⟩)

/-- INIT ends: each step lessens the entries that are left or, at the same entry, the reads that are left of its loop. -/
theorem State.Initializing.ends {s : State} {k : Fin 24} (h : s.Initializing k) :
    ∃ m t, run m s = .next t ∧ t.Initialized := by
  obtain ⟨u, hstep, hu | ⟨k', hk, hu⟩ | ⟨hu, hless⟩⟩ := h.step_cases
  · exact ⟨1, u, run_succ_of_step hstep, hu⟩
  · obtain ⟨m, t, hrun, ht⟩ := hu.ends
    exact ⟨m + 1, t, (run_succ_of_step hstep).trans hrun, ht⟩
  · obtain ⟨m, t, hrun, ht⟩ := hu.ends
    exact ⟨m + 1, t, (run_succ_of_step hstep).trans hrun, ht⟩
termination_by (24 - k.val, s.retryLimit - s.i)
decreasing_by
  · exact Prod.Lex.left _ _ (by omega)
  · exact Prod.Lex.right _ hless

/-- Settles O33, by the entries left and the reads left at each: the invariant puts the retry counter below its bound, and
the legal POLL_BOUND and the given ACK_BOUND bound every loop (R204). -/
theorem boundedInitEnds : Obligations.BoundedInitEnds := by
  intro s k n hinv hr hreset hc hack
  obtain ⟨hlegal, -, -, hi, -⟩ := hinv
  have hstart : s.Initializing k := ⟨⟨hr, hreset, hlegal, by simp [hack]⟩, hc, hi⟩
  obtain ⟨m, t, hrun, ht⟩ := hstart.ends
  exact ⟨m, t, hrun, ht.ctl_eq, ht.registered, ht.notRefused⟩

end Sys2Proof.Machine
end

section
/-! PROOF. The encodings (30_encoding.md): the decoder reads exactly the rows of the table, each spelled by no other row's
bytes, and is the inverse of the encoder. -/

namespace Sys2Proof

variable {sl : Slot} {b : Byte} {i : Instr} {r r' : Row}

/-! ### No byte in one place spells two rows -/

theorem Row.spelledBy_iff : r.spelledBy sl b = true ↔ r.slot = sl ∧ b &&& r.mask = r.value := by
  simp [Row.spelledBy]

/-- Two rows are told apart by their places, or by a bit that both masks test and that they fix differently. -/
def Row.ToldApart (r r' : Row) : Prop := r.slot ≠ r'.slot ∨ r.value &&& r'.mask ≠ r'.value &&& r.mask

theorem Row.ToldApart.not_both (h : r.ToldApart r') : ¬(r.spelledBy sl b = true ∧ r'.spelledBy sl b = true) := by
  rw [Row.spelledBy_iff, Row.spelledBy_iff]
  rintro ⟨⟨hslot, hval⟩, hslot', hval'⟩
  rcases h with hne | hne
  · exact hne (hslot.trans hslot'.symm)
  · refine hne ?_
    rw [← hval, ← hval']
    ac_rfl

theorem encodedRows_toldApart : encodedRows.Pairwise Row.ToldApart := by
  unfold Row.ToldApart
  decide

/-- Settles O4: every two rows of the table are told apart. -/
theorem encodedRowsDisjoint : Obligations.EncodedRowsDisjoint :=
  encodedRows_toldApart.imp fun h _ _ => h.not_both

/-! ### What the decoder reads -/

/-- The first row that a byte spells is the only one. -/
theorem find_spelled_row (hmem : r ∈ encodedRows) (hspell : r.spelledBy sl b = true) :
    (encodedRows.find? fun r => r.spelledBy sl b) = some r := by
  obtain ⟨before, after, hrows⟩ := List.append_of_mem hmem
  have hpair := encodedRows_toldApart
  rw [hrows, List.pairwise_append] at hpair
  obtain ⟨-, -, hbefore⟩ := hpair
  refine List.find?_eq_some_iff_append.2 ⟨hspell, before, after, hrows, fun r' hr' => ?_⟩
  have hnot := (hbefore r' hr' r List.mem_cons_self).not_both (sl := sl) (b := b)
  simpa [hspell] using hnot

/-- The decoder reads a byte as the instruction of a row that the byte spells in its place. -/
theorem decode_eq_some_iff :
    decode sl b = some i ↔ ∃ r ∈ encodedRows, r.spelledBy sl b = true ∧ r.make b = i := by
  rw [decode, Option.map_eq_some_iff]
  constructor
  · rintro ⟨r, hfind, rfl⟩
    exact ⟨r, List.mem_of_find?_eq_some hfind, List.find?_some (p := (Row.spelledBy · sl b)) hfind, rfl⟩
  · rintro ⟨r, hmem, hspell, rfl⟩
    exact ⟨r, find_spelled_row hmem hspell, rfl⟩

/-! ### The decoder is the inverse of the encoder -/

/-- The encoder, on the instructions of a row, and the row's mask and match are the same test of a byte. -/
theorem encodes_iff_spells (c : Params) (b : Byte) :
    ∀ r ∈ encodedRows, (r.make b).wellFormed c = true ∧ encode (r.make b) = some (r.slot, b) ↔ b &&& r.mask = r.value := by
  have hfull : b &&& 0xFF#8 = b := BitVec.and_allOnes
  refine List.forall_mem_append.2 ⟨?_, ?_⟩
  · simp [fixedRows, Instr.wellFormed, encode, hfull, eq_comm (b := b)]
  · simp [maskedRows, Instr.wellFormed, encode]

/-- An instruction that has a byte is of a row of its place; a micro-operation has none (R86). -/
theorem exists_row_of_encode (h : encode i = some (sl, b)) : ∃ r ∈ encodedRows, r.slot = sl ∧ r.make b = i := by
  cases i with
  | waitw | waitr | send | ackloop | out | inCfg | cfgOr | regirq | istat | idata | decode => cases h
  | _ => cases h; simp [encodedRows, fixedRows, maskedRows]

/-- Settles O2: the row of the instruction is spelled by its byte, and the decoder reads the row that is spelled. -/
theorem decodeOfEncode : Obligations.DecodeOfEncode := by
  intro c i sl b hwf henc
  obtain ⟨r, hmem, rfl, rfl⟩ := exists_row_of_encode henc
  exact decode_eq_some_iff.2
    ⟨r, hmem, Row.spelledBy_iff.2 ⟨rfl, (encodes_iff_spells c b r hmem).1 ⟨hwf, henc⟩⟩, rfl⟩

/-- Settles O3: what is decoded is of a row that the byte spells, and the encoder puts it there. -/
theorem encodeOfDecode : Obligations.EncodeOfDecode := by
  intro c sl b i hdec
  obtain ⟨r, hmem, hspell, rfl⟩ := decode_eq_some_iff.1 hdec
  obtain ⟨rfl, hval⟩ := Row.spelledBy_iff.1 hspell
  exact (encodes_iff_spells c b r hmem).2 hval

/-- Settles O1: each word, evaluated. -/
theorem tableWordsDecode : Obligations.TableWordsDecode := by
  unfold Obligations.TableWordsDecode
  decide

end Sys2Proof
end

section
/-! PROOF. The requests (30_encoding.md R71 to R73, 42_init.md R140, 43_packet.md R160), the refusals (60_exceptions.md
R214) and the primitives (00_scope.md R18, 30_encoding.md R83). -/

namespace Sys2Proof.Machine

variable {s t : State} {i : Instr}

/-! ### Requests -/

/-- Settles O6: the acceptance of INIT is `execInit`'s own next state. -/
theorem initAccepted : Obligations.InitAccepted :=
  fun _ hr hc => onRequest_idle hr hc

/-- Settles O9: code 00 takes the offer and nothing else. -/
theorem noRequestStaysIdle : Obligations.NoRequestStaysIdle :=
  fun _ hr hc => onRequest_idle hr hc

/-- A refusal sets `refused`, and the state after has no step while the reset input is low (R214). -/
theorem refusal_has_no_step (s : State) (r : RefuseReason) (hh : s.resetIn.head? ≠ some true) :
    step (s.takeOffer.raiseRefuse r) = .refused (.refusedState (some r)) :=
  step_refused (s := s.takeOffer.raiseRefuse r) rfl hh

/-- Settles O8: the acceptance of code 11 raises the refusal. -/
theorem reservedRequestSetsRefused : Obligations.ReservedRequestSetsRefused :=
  fun s hr hc => ⟨s.takeOffer.raiseRefuse .reservedRequest, onRequest_idle hr hc, rfl, refusal_has_no_step s _⟩

/-- The status check of an IRQ just accepted, in the state that accepts it (R71, R162). -/
theorem didRead_takeOffer_enterIrq (s : State) :
    s.takeOffer.enterIrq.didRead .statusCmd =
      { s.didRead .statusCmd with ctl := .irq 0, requests := s.requests.tail } := by
  cases hs : s.statusIn with
  | nil =>
    have hs' : s.takeOffer.enterIrq.statusIn = [] := hs
    rw [didRead_status_free hs, didRead_status_free hs']
    rfl
  | cons b rest =>
    have hs' : s.takeOffer.enterIrq.statusIn = b :: rest := hs
    rw [didRead_status_cons hs, didRead_status_cons hs']
    rfl

/-- Settles O7: with the line registered, the two outcomes of the status check; without, the refusal. -/
theorem irqAccepted : Obligations.IrqAccepted := by
  intro s hr hc
  have hread : s.takeOffer.enterIrq.readValue .statusCmd = s.readValue .statusCmd := rfl
  refine ⟨fun hg hb => exec_irq_next_iff.2 ⟨hr, .inl ⟨hc, ?_⟩⟩, fun hg hb => exec_irq_next_iff.2 ⟨hr, .inl ⟨hc, ?_⟩⟩,
    fun hg => ⟨_, exec_irq_next_iff.2 ⟨hr, .inl ⟨hc, rfl⟩⟩, ?_, ?_⟩⟩
  · rw [if_pos hg, istatStep_data (by rw [hread, irqData_eq_bit, hb]), didRead_takeOffer_enterIrq]
  · rw [if_pos hg, istatStep_spurious (by rw [hread, irqData_eq_bit, hb]), didRead_takeOffer_enterIrq]
    rfl
  · simp [hg, State.raiseRefuse, State.takeOffer]
  · simpa [hg] using refusal_has_no_step s .irqBeforeRegister

/-- Settles O10: a busy request is held without effect, and no micro-operation nor the reset takes an offer. -/
theorem busyBlockHoldsRequests : Obligations.BusyBlockHoldsRequests := by
  intro s hr hc
  refine ⟨?_, fun t hstep => ?_⟩
  · rintro i (rfl | rfl | rfl | rfl) <;> exact onRequest_busy hr hc
  · rcases step_effect hstep with ⟨-, rfl⟩ | ⟨-, -, hc', -⟩ | ⟨-, -, m, hm, h⟩
    · rfl
    · exact absurd hc' hc
    · obtain ⟨hreq, -⟩ := micro_frame hm h
      exact hreq

/-- Settles O11: the step's own guard, and that of every instruction. -/
theorem refusedStateHasNoStep : Obligations.RefusedStateHasNoStep := by
  intro s i hr
  refine ⟨step_refused hr, fun t h => ?_⟩
  obtain ⟨hr', -⟩ := exec_effect h
  simp [hr] at hr'

/-! ### The primitives -/

/-- The environment's answer to a read changes its own fields alone (R56). -/
theorem takeInput_frame (s : State) (p : Port) :
    ∃ si di n, s.takeInput p = { s with statusIn := si, dataIn := di, draws := n } := by
  cases p <;> simp only [State.takeInput] <;> split <;> exact ⟨_, _, _, rfl⟩

/-- Settles O12: the frame is that of the environment's answer, the values are those that the script lists. -/
theorem portReadFrame : Obligations.PortReadFrame := by
  intro s p
  refine ⟨?_, fun b rest hs => ?_, fun b rest hd => ?_⟩
  · obtain ⟨si, di, n, htake⟩ := takeInput_frame s p
    exact ⟨si, di, n, by rw [State.didRead, htake]⟩
  · simp [readValue_status_cons hs, didRead_status_cons hs]
  · simp [readValue_data_cons hd, didRead_data_cons hd]

/-- Settles O13, from the two's-complement reading of `sext_8`. -/
theorem motionDeltaIsTwosComplement : Obligations.MotionDeltaIsTwosComplement := by
  refine ⟨fun b => ⟨sext8_eq_toInt b, ?_, ?_⟩, by decide, by decide⟩
  · rw [sext8_eq_toInt]
    exact BitVec.le_toInt b
  · rw [sext8_eq_toInt]
    exact Int.le_sub_one_of_lt BitVec.toInt_lt

end Sys2Proof.Machine
end

section
/-! PROOF. The waits (40_poll.md) and the command protocol (41_command.md), step by step: each branch of WAITW, WAITR and
ACKLOOP, the bounded and unbounded loops over a script, and the SENDs. -/

namespace Sys2Proof.Machine

variable {s : State} {k k' : Fin 24} {kind : PollKind} {b c : Byte}

/-! ### One step of a wait -/

/-- The three branches of a wait at its entry (R100 to R103). -/
theorem exec_wait_at (hr : s.refused = false) (hc : s.ctl = .init k) (hentry : initSeq s.params k = kind.wait)
    (hk : k'.val = k.val + 1) :
    (kind.ready (s.readValue .statusCmd) = true →
      exec kind.wait s = .next { s.didRead .statusCmd with i := 0, ctl := .init k' }) ∧
    (kind.ready (s.readValue .statusCmd) = false → s.i + 1 = s.params.pollBound →
      exec kind.wait s = .next { s.didRead .statusCmd with
        i := 0, ctl := .init k'
        trace := s.trace ++ [.read .statusCmd (s.readValue .statusCmd), .ev (.pollTimeout kind)] }) ∧
    (kind.ready (s.readValue .statusCmd) = false → s.i + 1 ≠ s.params.pollBound →
      exec kind.wait s = .next { s.didRead .statusCmd with i := s.i + 1 }) := by
  have hcread : (s.didRead .statusCmd).ctl = .init k := by simpa using hc
  rw [exec_wait hr (microOp_at hc hentry)]
  refine ⟨fun hb => ?_, fun hb hi => ?_, fun hb hi => ?_⟩
  · rw [pollStep_ready hb, endLoop_at hcread hk]
  · rw [pollStep_timeout hb hi, endLoop_at (s := (s.didRead .statusCmd).emit _) hcread hk]
    simp [State.emit]
  · rw [pollStep_retry hb hi]
    simp [State.countRetry]

/-- Settles O14: WAITW is the wait for bit 1 clear. -/
theorem waitwStep : Obligations.WaitwStep := by
  intro s k k' hr hc hmem hk
  have hentry : initSeq s.params k = PollKind.write.wait := by fin_cases k <;> simp at hmem <;> rfl
  simpa [PollKind.ready, PollKind.wait, writeReady_eq_bit] using exec_wait_at hr hc hentry hk

/-- Settles O15: WAITR is the wait for bit 0 set. -/
theorem waitrStep : Obligations.WaitrStep := by
  intro s k k' hr hc hmem hk
  have hentry : initSeq s.params k = PollKind.read.wait := by fin_cases k <;> simp at hmem <;> rfl
  simpa [PollKind.ready, PollKind.wait, readReady_eq_bit] using exec_wait_at hr hc hentry hk

/-- Settles O16: a status row, where its byte is the one read and meets its test, is the ready branch of its
micro-operation (R78). -/
theorem statusRowsComplete : Obligations.StatusRowsComplete := by
  intro s k k' b hr hb hk
  subst hb
  have hend (hc : s.ctl = .init k) :
      (s.didRead .statusCmd).endLoop = { s.didRead .statusCmd with i := 0, ctl := .init k' } :=
    endLoop_at (by simpa using hc) hk
  refine ⟨fun hc hentry hv => ?_, fun hc hentry hv => ?_, fun hc hv => ?_⟩
  · have hm := microOp_at hc hentry
    have hrow := exec_statusWriteReady_next_iff.2 ⟨hr, ⟨hm, rfl, hv⟩, hend hc⟩
    exact ⟨hrow, hrow.trans (exec_waitw_next_iff.2 ⟨hr, hm, (pollStep_ready (decide_eq_true hv)).trans (hend hc)⟩).symm⟩
  · have hm := microOp_at hc hentry
    have hrow := exec_statusReadReady_next_iff.2 ⟨hr, ⟨hm, rfl, hv⟩, hend hc⟩
    exact ⟨hrow, hrow.trans (exec_waitr_next_iff.2 ⟨hr, hm, (pollStep_ready (decide_eq_true hv)).trans (hend hc)⟩).symm⟩
  · have hm : s.microOp = some .istat := microOp_irq hc
    have hrow := exec_statusIrqData_next_iff.2 ⟨hr, ⟨hm, rfl, hv⟩, rfl⟩
    exact ⟨hrow, hrow.trans (exec_istat_next_iff.2 ⟨hr, hm, istatStep_data (decide_eq_true hv)⟩).symm⟩

/-! ### A status that is never ready -/

section PollLoop

variable {n : Nat} {v : Byte} {vs rest : List Byte} (hr : s.refused = false) (hn : s.resetIn = [])
  (hc : s.ctl = .init k)

include hr hn hc

/-- A read that is not ready and not the POLL_BOUND-th is counted (R100). -/
theorem run_wait_retry (hentry : initSeq s.params k = kind.wait) (hs : s.statusIn = v :: rest)
    (hv : kind.ready v = false) (hi : s.i + 1 ≠ s.params.pollBound) :
    run (n + 1) s = run n { s with statusIn := rest, i := s.i + 1, trace := s.trace ++ [.read .statusCmd v] } := by
  refine run_succ_of_step ((step_at hr hn hc hentry).trans ((exec_wait hr (microOp_at hc hentry)).trans ?_))
  rw [pollStep_retry (by rwa [readValue_status_cons hs]) hi, didRead_status_cons hs]
  rfl

/-- The POLL_BOUND-th read that is not ready ends the wait with its timeout (R102). -/
theorem run_wait_last (hentry : initSeq s.params k = kind.wait) (hk : k'.val = k.val + 1) (hs : s.statusIn = v :: rest)
    (hv : kind.ready v = false) (hi : s.i + 1 = s.params.pollBound) :
    run (n + 1) s = run n { s with
      statusIn := rest, i := 0, ctl := .init k'
      trace := s.trace ++ [.read .statusCmd v, .ev (.pollTimeout kind)] } := by
  obtain ⟨-, htimeout, -⟩ := exec_wait_at hr hc hentry hk
  rw [readValue_status_cons hs, didRead_status_cons hs] at htimeout
  exact run_succ_of_step ((step_at hr hn hc hentry).trans (htimeout hv hi))

/-- A wait whose reads are v and vs, none ready and the last one the POLL_BOUND-th, times out after exactly these reads. -/
theorem run_wait_timeout (hentry : initSeq s.params k = kind.wait) (hk : k'.val = k.val + 1)
    (hs : s.statusIn = v :: (vs ++ rest)) (hv : ∀ w ∈ v :: vs, kind.ready w = false)
    (hi : s.i + 1 + vs.length = s.params.pollBound) :
    run (vs.length + 1) s = .next { s with
      statusIn := rest, i := 0, ctl := .init k'
      trace := s.trace ++ (v :: vs).map (Label.read .statusCmd) ++ [.ev (.pollTimeout kind)] } := by
  induction vs generalizing s v with
  | nil =>
    rw [List.length_nil, run_wait_last hr hn hc hentry hk hs (hv v List.mem_cons_self) hi]
    simp [run]
  | cons w vs ih =>
    obtain ⟨hv, hvs⟩ := List.forall_mem_cons.1 hv
    rw [List.length_cons] at hi ⊢
    rw [run_wait_retry hr hn hc hentry hs hv (by omega),
      ih (v := w) (by exact hr) (by exact hn) (by exact hc) (by exact hentry) rfl hvs (by simp; omega)]
    simp

end PollLoop

/-- Settles O18: the reads of the script, one a step, up to the POLL_BOUND-th (R100, R102). -/
theorem pollTimesOutAfterExactlyBound : Obligations.PollTimesOutAfterExactlyBound := by
  intro s k k' vs rest hr hn hc hi hpos hlen hs hk
  obtain ⟨v, ws, rfl⟩ : ∃ v ws, vs = v :: ws := List.exists_cons_of_length_pos (by omega)
  rw [List.length_cons] at hlen
  have hrun (kind : PollKind) (hentry : initSeq s.params k = kind.wait) (hv : ∀ w ∈ v :: ws, kind.ready w = false) :
      run s.params.pollBound s = .next { s with
        statusIn := rest, ctl := .init k'
        trace := s.trace ++ (v :: ws).map (Label.read .statusCmd) ++ [.ev (.pollTimeout kind)] } := by
    rw [← hlen, run_wait_timeout hr hn hc hentry hk hs hv (by omega), ← hi]
  refine ⟨fun hentry hv => hrun .write hentry fun w hw => ?_, fun hentry hv => hrun .read hentry fun w hw => ?_⟩
  · exact (writeReady_eq_bit w).trans (by simp [hv w hw])
  · exact (readReady_eq_bit w).trans (hv w hw)

/-! ### ACKLOOP -/

theorem exec_ackloop_at (hr : s.refused = false) (hc : s.ctl = .init k) (hentry : initSeq s.params k = .ackloop) :
    exec .ackloop s = .next s.ackStep :=
  exec_ackloop_next_iff.2 ⟨hr, microOp_at hc hentry, rfl⟩

/-- The two entries of ACKLOOP, each in the SEND of the command c (R120). -/
theorem initSeq_ackloop (q : Params) (hk : k.val = 16 ∧ c = 0xF6 ∨ k.val = 22 ∧ c = 0xF4) : initSeq q k = .ackloop := by
  rcases hk with ⟨hk, -⟩ | ⟨hk, -⟩ <;> simp [initSeq, hk]

/-- Settles O19: the four branches of ACKLOOP, by the byte read and the bound (R122, R123). -/
theorem ackloopStep : Obligations.AckloopStep := by
  intro s k k' c hr hc hsend hk
  have hcread : (s.didRead .data).ctl = .init k := by simpa using hc
  rw [exec_ackloop_at hr hc (initSeq_ackloop _ hsend)]
  refine ⟨fun hb => ?_, fun hb hnone => ?_, fun n hb hbound hi => ?_, fun n hb hbound hi => ?_⟩
  · rw [ackStep_acked hb, endLoop_at hcread hk]
  · rw [ackStep_discarded hb, notAcked_unbounded (by simpa using hnone)]
  · rw [ackStep_discarded hb, notAcked_timeout (by simpa using hbound) (by simpa using hi), emitAckTimeout_at hcread hsend,
      endLoop_at (s := (s.didRead .data).emit _) hcread hk]
    simp [State.emit]
  · rw [ackStep_discarded hb, notAcked_retry (by simpa using hbound) (by simpa using hi)]
    simp [State.countRetry]

/-- Settles O20: the acknowledge is the branch of ACKLOOP that ends it (R77). -/
theorem ackByteEndsLoop : Obligations.AckByteEndsLoop := by
  intro s k k' hr hc hentry hb hk
  have hend : (s.didRead .data).endLoop = { s.didRead .data with i := 0, ctl := .init k' } :=
    endLoop_at (by simpa using hc) hk
  have hrow := exec_auxAck_next_iff.2 ⟨hr, ⟨microOp_at hc hentry, hb⟩, hend⟩
  exact ⟨hrow, hrow.trans ((exec_ackloop_at hr hc hentry).trans (by rw [ackStep_acked hb, hend])).symm⟩

section AckLoop

variable {n : Nat} {v : Byte} {vs rest : List Byte} (hr : s.refused = false) (hn : s.resetIn = [])
  (hc : s.ctl = .init k)

include hr hn hc

/-- An ACKLOOP without a bound discards every byte but the acknowledge, and stays (R203). -/
theorem run_ackloop_unbounded (hentry : initSeq s.params k = .ackloop) (hbound : s.params.ackBound = none)
    (hd : s.dataIn = vs ++ rest) (hvs : ∀ v ∈ vs, v ≠ 0xFA) :
    run vs.length s = .next { s with dataIn := rest, trace := s.trace ++ vs.map (Label.read .data) } := by
  induction vs generalizing s with
  | nil =>
    rw [List.nil_append] at hd
    simp [run, ← hd]
  | cons v vs ih =>
    obtain ⟨hv, hvs⟩ := List.forall_mem_cons.1 hvs
    have hstep : step s = .next (s.didRead .data) := by
      rw [step_at hr hn hc hentry, exec_ackloop_at hr hc hentry, ackStep_discarded (by rwa [readValue_data_cons hd]),
        notAcked_unbounded (by simpa using hbound)]
    rw [List.length_cons, run_succ_of_step hstep, didRead_data_cons hd,
      ih (by exact hr) (by exact hn) (by exact hc) (by exact hentry) (by exact hbound) rfl hvs]
    simp

theorem run_ackloop_retry {m : Nat} (hentry : initSeq s.params k = .ackloop) (hbound : s.params.ackBound = some n)
    (hd : s.dataIn = v :: rest) (hv : v ≠ 0xFA) (hi : s.i + 1 ≠ n) :
    run (m + 1) s = run m { s with dataIn := rest, i := s.i + 1, trace := s.trace ++ [.read .data v] } := by
  refine run_succ_of_step ((step_at hr hn hc hentry).trans ((exec_ackloop_at hr hc hentry).trans ?_))
  rw [ackStep_discarded (by rwa [readValue_data_cons hd]), notAcked_retry (by simpa using hbound) (by simpa using hi),
    didRead_data_cons hd]
  rfl

theorem run_ackloop_last {m : Nat} (hsend : k.val = 16 ∧ c = 0xF6 ∨ k.val = 22 ∧ c = 0xF4) (hk : k'.val = k.val + 1)
    (hbound : s.params.ackBound = some n) (hd : s.dataIn = v :: rest) (hv : v ≠ 0xFA) (hi : s.i + 1 = n) :
    run (m + 1) s = run m { s with
      dataIn := rest, i := 0, ctl := .init k', trace := s.trace ++ [.read .data v, .ev (.ackTimeout c)] } := by
  obtain ⟨-, -, htimeout, -⟩ := ackloopStep s k k' c hr hc hsend hk
  rw [readValue_data_cons hd, didRead_data_cons hd] at htimeout
  exact run_succ_of_step ((step_at hr hn hc (initSeq_ackloop _ hsend)).trans (htimeout n hv hbound hi))

/-- An ACKLOOP with a bound that reads v and vs, none the acknowledge and the last one the bound's, times out after exactly
these reads (R123). -/
theorem run_ackloop_timeout (hsend : k.val = 16 ∧ c = 0xF6 ∨ k.val = 22 ∧ c = 0xF4) (hk : k'.val = k.val + 1)
    (hbound : s.params.ackBound = some n) (hd : s.dataIn = v :: (vs ++ rest)) (hv : ∀ w ∈ v :: vs, w ≠ 0xFA)
    (hi : s.i + 1 + vs.length = n) :
    run (vs.length + 1) s = .next { s with
      dataIn := rest, i := 0, ctl := .init k'
      trace := s.trace ++ (v :: vs).map (Label.read .data) ++ [.ev (.ackTimeout c)] } := by
  induction vs generalizing s v with
  | nil =>
    rw [List.length_nil, run_ackloop_last hr hn hc hsend hk hbound hd (hv v List.mem_cons_self) hi]
    simp [run]
  | cons w vs ih =>
    obtain ⟨hv, hvs⟩ := List.forall_mem_cons.1 hv
    rw [List.length_cons] at hi ⊢
    rw [run_ackloop_retry hr hn hc (initSeq_ackloop _ hsend) hbound hd hv (by omega),
      ih (v := w) (by exact hr) (by exact hn) (by exact hc) (by exact hbound) rfl hvs (by simp; omega)]
    simp

end AckLoop

/-- Settles O22: the bytes of the script are discarded one a step (R203). -/
theorem ackloopHangsWithoutAcknowledge : Obligations.AckloopHangsWithoutAcknowledge :=
  fun _ _ _ _ hr hn hbound hc hentry hd hvs => run_ackloop_unbounded hr hn hc hentry hbound hd hvs

/-- Settles O23: the bytes of the script are counted one a step up to the bound (R123). -/
theorem boundedAckloopTimesOut : Obligations.BoundedAckloopTimesOut := by
  intro s k k' c n vs rest hr hn hbound hpos hc hsend hi hlen hd hvs hk
  obtain ⟨v, ws, rfl⟩ : ∃ v ws, vs = v :: ws := List.exists_cons_of_length_pos (by omega)
  rw [List.length_cons] at hlen
  rw [← hlen, run_ackloop_timeout hr hn hc hsend hk hbound hd hvs (by omega), ← hi]

/-! ### SEND -/

/-- A micro-operation has one effect. -/
theorem MicroEffect.unique {m : Instr} {t t' : State} (h : MicroEffect s t m) (h' : MicroEffect s t' m) : t = t' := by
  cases m with
  | waitw | waitr | ackloop | out | inCfg | cfgOr | regirq | istat | idata | decode => exact Eq.trans h (Eq.symm h')
  | _ => cases h

/-- The j-th entry of a SEND holds the j-th micro-operation of its expansion, and encloses it (R120, R141). -/
theorem sendAt_expansion {j : Nat} (q : Params) (hj : j < 6)
    (hk : c = 0xF6 ∧ k.val = 11 + j ∨ c = 0xF4 ∧ k.val = 17 + j) :
    sendAt k = some (c, j) ∧ (sendExpansion c)[j]? = some (initSeq q k) := by
  obtain ⟨k, hlt⟩ := k
  have hk' : c = 0xF6 ∧ k = 11 + j ∨ c = 0xF4 ∧ k = 17 + j := hk
  rcases hk' with ⟨rfl, rfl⟩ | ⟨rfl, rfl⟩ <;> interval_cases j <;> exact ⟨rfl, rfl⟩

/-- Settles O21: a step of SEND has the effect of the micro-operation that stands at the entry, which completes (R120). -/
theorem sendIsItsExpansion : Obligations.SendIsItsExpansion := by
  intro s k c j hr hc hj hk
  obtain ⟨hat, hexpansion⟩ := sendAt_expansion s.params hj hk
  have hsend : s.enclosingSend = some (c, j) := by rw [State.enclosingSend, hc, ← hat]
  have hm := microOp_init hc
  obtain ⟨t, ht⟩ := exec_selected_completes hr hm
  obtain ⟨m, hm', heff⟩ := sendStep_effect hsend
  obtain rfl : initSeq s.params k = m := Option.some.inj (hm.symm.trans hm')
  exact ⟨_, t, hexpansion, rfl, ht, exec_send_next_iff.2 ⟨hr, j, hsend, heff.unique (selected_effect hm ht)⟩⟩

end Sys2Proof.Machine
end

section
/-! PROOF. The machine as a whole: what one step keeps (10_state.md), adds to the trace (00_scope.md R9, R19) and writes
(30_encoding.md R75, R76, R85), and where the registers change. -/

namespace Sys2Proof.Machine

variable {s t : State} {i m : Instr}

/-! ### Where `ctl` goes -/

/-- A micro-operation of INIT stays at its entry or ends it (R27, R28). -/
theorem initEntry_ctl {k : Fin 24} (hc : s.ctl = .init k) (h : MicroEffect s t (initSeq s.params k)) :
    t.ctl = .init k ∨ t.ctl = (Ctl.init k).next := by
  rcases microEffect_cases (microOp_init hc) h with ⟨j, hj, h⟩ | ⟨hj, -⟩ | ⟨hj, -⟩ | ⟨hj, -⟩
  · obtain rfl : k = j := by simpa [hc] using hj
    rcases h with ⟨-, rfl⟩ | ⟨-, rfl⟩ | ⟨-, rfl⟩ | ⟨rfl, rfl⟩ | ⟨rfl, rfl⟩ | ⟨rfl, rfl⟩ | ⟨p, v, -, -, rfl⟩
    · rcases pollStep_cases s writeReady .write with e | ⟨-, e⟩ | ⟨-, e⟩ <;> simp [e, hc]
    · rcases pollStep_cases s readReady .read with e | ⟨-, e⟩ | ⟨-, e⟩ <;> simp [e, hc]
    · rcases ackStep_cases s with e | ⟨-, e⟩ | ⟨n, -, -, e⟩ | ⟨n, -, -, e⟩
      · simp [e, hc]
      · simp [e, hc]
      · rcases emitAckTimeout_cases (s.didRead .data) with e' | ⟨x, e'⟩ <;> simp [e, e', hc]
      · simp [e, hc]
    · exact .inr rfl
    · exact .inr rfl
    · exact .inr rfl
    · exact .inr (by simp [State.outStep, hc])
  all_goals simp [hc] at hj

/-- Every branch of the decode ends the IRQ (R170). -/
theorem decodeStep_ctl (s : State) : s.decodeStep.ctl = .idle := by
  rcases decodeStep_cases s with ⟨-, e⟩ | ⟨-, e⟩ | ⟨-, e⟩ | ⟨-, e⟩ <;> rw [e] <;> rfl

theorem decodeStep_i (s : State) : s.decodeStep.i = s.i := by
  have hleft : s.leftStored.i = s.i := by rcases leftStored_cases s with e | e <;> rw [e]; rfl
  have hright (u : State) : u.rightStored.i = u.i := by rcases rightStored_cases u with e | e <;> rw [e]; rfl
  rcases decodeStep_cases s with ⟨-, e⟩ | ⟨-, e⟩ | ⟨-, e⟩ | ⟨-, e⟩ <;> rw [e]
  · rfl
  · rfl
  · exact hleft
  · exact (hright _).trans hleft

/-- The moves of `ctl` in a selected micro-operation (R27, R161): DECODE is reached with the counter reset (R164). -/
theorem micro_ctl (hm : s.microOp = some m) (h : MicroEffect s t m) :
    (∃ k, s.ctl = .init k ∧ (t.ctl = .init k ∨ t.ctl = (Ctl.init k).next)) ∨
      (s.ctl.isIrq = true ∧ (t.ctl = .idle ∨ t.ctl = .irq 1 ∨ (t.ctl = .irq 2 ∧ t.cnt = 0))) := by
  cases hc : s.ctl with
  | idle => rw [microOp_idle hc] at hm; cases hm
  | init k =>
    obtain rfl : initSeq s.params k = m := by simpa [microOp_init hc] using hm
    exact .inl ⟨k, rfl, initEntry_ctl hc h⟩
  | irq k =>
    refine .inr ⟨rfl, ?_⟩
    rcases microEffect_cases hm h with ⟨j, hj, -⟩ | ⟨-, rfl⟩ | ⟨-, rfl⟩ | ⟨-, rfl⟩
    · simp [hc] at hj
    · rcases istatStep_cases s with e | e <;> simp [e]
    · by_cases hcnt : s.cnt.val < 2 <;> simp [hcnt, nextCount]
    · exact .inl (decodeStep_ctl s)

/-! ### The parts of the invariant -/

/-- An entry that ends, or retries below its bound, leaves the counter below the bound of the entry that is next. -/
theorem State.EndsOrRetries.i_lt (h : s.EndsOrRetries t) (hp : t.params = s.params) (hlegal : s.params.legal = true) :
    t.i < t.retryLimit := by
  rcases h with ⟨-, hi⟩ | ⟨hctl, hi, hlt⟩
  · rw [hi]
    exact retryLimit_pos (hp ▸ hlegal)
  · rw [hi, retryLimit_congr hctl hp]
    exact hlt

/-- The retry counter stays below its bound (R28): an entry without a loop has the bound 1 and leaves the counter at 0. -/
theorem micro_i_lt (hm : s.microOp = some m) (h : MicroEffect s t m) (hlegal : s.params.legal = true)
    (hi : s.i < s.retryLimit) : t.i < t.retryLimit := by
  obtain ⟨-, hp, -⟩ := micro_frame hm h
  have hpos : 0 < t.retryLimit := retryLimit_pos (hp ▸ hlegal)
  have hsame (hlim : s.retryLimit = 1) (ht : t.i = s.i) : t.i < t.retryLimit := by omega
  rcases microEffect_cases hm h with ⟨k, hc, h⟩ | ⟨hc, rfl⟩ | ⟨hc, rfl⟩ | ⟨hc, rfl⟩
  · have hk := microOp_init hc
    rcases h with ⟨e, rfl⟩ | ⟨e, rfl⟩ | ⟨e, rfl⟩ | ⟨rfl, rfl⟩ | ⟨rfl, rfl⟩ | ⟨rfl, rfl⟩ | ⟨p, v, e, -, rfl⟩
    · exact (pollStep_endsOrRetries _ _ (by simp [State.retryLimit, hk, e]) hi).i_lt hp hlegal
    · exact (pollStep_endsOrRetries _ _ (by simp [State.retryLimit, hk, e]) hi).i_lt hp hlegal
    · have hlim : s.retryLimit = s.params.ackBound.getD 1 := by simp [State.retryLimit, hk, e]
      by_cases hb : s.params.ackBound = none
      · rcases ackStep_cases s with e' | ⟨-, e'⟩ | ⟨n, hn, -⟩ | ⟨n, hn, -⟩
        · simpa [e'] using hpos
        · exact hsame (by simp [hlim, hb]) (by simp [e'])
        · simp [hb] at hn
        · simp [hb] at hn
      · exact (ackStep_endsOrRetries hb hlim hi).i_lt hp hlegal
    · exact hsame (by simp [State.retryLimit, hk, initSeq]) (by simp)
    · exact hsame (by simp [State.retryLimit, hk, initSeq]) rfl
    · exact hsame (by simp [State.retryLimit, hk, initSeq]) rfl
    · exact hsame (by simp [State.retryLimit, hk, e]) rfl
  · exact hsame (by simp [State.retryLimit, microOp_irq hc, irqSeq]) (by simp)
  · exact hsame (by simp [State.retryLimit, microOp_irq hc, irqSeq]) (by simp)
  · exact hsame (by simp [State.retryLimit, microOp_irq hc, irqSeq]) (decodeStep_i s)

theorem Ctl.next_init_eq_init_iff {k k' : Fin 24} : (Ctl.init k).next = .init k' ↔ k'.val = k.val + 1 := by
  simp only [Ctl.next]
  split <;> simp [Fin.ext_iff] <;> omega

theorem Ctl.next_init_ne_irq {k : Fin 24} {j : Fin 3} : (Ctl.init k).next ≠ .irq j := by
  simp only [Ctl.next]
  split <;> simp

theorem cfgReady_iff : s.cfgReady = true ↔ ∃ k, s.ctl = .init k ∧ 7 ≤ k.val ∧ k.val ≤ 10 := by
  unfold State.cfgReady
  split <;> simp_all

theorem Ctl.isIrq_iff {c : Ctl} : c.isIrq = true ↔ ∃ k, c = .irq k := by
  cases c <;> simp [Ctl.isIrq]

/-- An IRQ in progress was in progress before the step: none begins within an operation (R30). -/
theorem micro_isIrq (hm : s.microOp = some m) (h : MicroEffect s t m) (ht : t.ctl.isIrq = true) : s.ctl.isIrq = true := by
  rcases micro_ctl hm h with ⟨k, -, hk⟩ | ⟨hirq, -⟩
  · obtain ⟨j, hj⟩ := Ctl.isIrq_iff.1 ht
    rcases hk with hk | hk
    · simp [hj] at hk
    · exact absurd (hk.symm.trans hj) Ctl.next_init_ne_irq
  · exact hirq

theorem micro_decode_next (hm : s.microOp = some m) (h : MicroEffect s t m) (ht : t.ctl = .irq 2) : t.cnt = 0 := by
  rcases micro_ctl hm h with ⟨k, -, hk | hk⟩ | ⟨-, hk | hk | ⟨-, hcnt⟩⟩
  · simp [ht] at hk
  · exact absurd (hk.symm.trans ht) Ctl.next_init_ne_irq
  · simp [ht] at hk
  · simp [ht] at hk
  · exact hcnt

/-- The line becomes registered with its event (R31, R150). -/
theorem micro_registered (hm : s.microOp = some m) (h : MicroEffect s t m)
    (hs : s.irqRegistered = true → Label.ev (.irqRegister s.params.irqLine s.params.irqDest) ∈ s.trace)
    (ht : t.irqRegistered = true) : Label.ev (.irqRegister t.params.irqLine t.params.irqDest) ∈ t.trace := by
  obtain ⟨-, hparams, -, -, -, -, hchange, -, -, -, added, htrace, -⟩ := micro_frame hm h
  by_cases hreg : s.irqRegistered = true
  · rw [hparams, htrace]
    exact List.mem_append_left _ (hs hreg)
  · obtain ⟨hc, -⟩ := hchange fun he => hreg (he ▸ ht)
    obtain rfl : initSeq s.params 23 = m := by simpa [microOp_init hc] using hm
    obtain rfl : t = ((s.emit (.irqRegister s.params.irqLine s.params.irqDest)).register).toIdle := h
    simp

/-- From CFG_OR to its write, the configuration byte has IRQ12_EN set (R84, R144). -/
theorem micro_cfgReady (hm : s.microOp = some m) (h : MicroEffect s t m)
    (hs : s.cfgReady = true → bitOf s.cfg 1 = true) (ht : t.cfgReady = true) : bitOf t.cfg 1 = true := by
  obtain ⟨k', hk', hlo, hhi⟩ := cfgReady_iff.1 ht
  obtain ⟨k, hc, hk⟩ : ∃ k, s.ctl = .init k ∧ (k'.val = k.val ∨ k'.val = k.val + 1) := by
    rcases micro_ctl hm h with ⟨k, hc, hk | hk⟩ | ⟨-, hk⟩
    · exact ⟨k, hc, .inl (by simpa [hk', Fin.ext_iff] using hk)⟩
    · exact ⟨k, hc, .inr (Ctl.next_init_eq_init_iff.1 (hk.symm.trans hk'))⟩
    · simp [hk'] at hk
  by_cases h6 : k = 6
  · subst h6
    obtain rfl : initSeq s.params 6 = m := by simpa [microOp_init hc] using hm
    obtain rfl : t = { s with cfg := cfgWith 0x02 s.cfg, ctl := .init 7 } := h
    rw [bitOf_cfgWith_irq12, decide_eq_true rfl, Bool.or_true]
  · have hk7 : 7 ≤ k.val := by omega
    obtain ⟨-, -, -, -, -, -, -, hcfg, -⟩ := micro_frame hm h
    have hsame : t.cfg = s.cfg := by
      refine not_not.1 (mt hcfg ?_)
      rw [hc]
      rintro (⟨⟨⟩⟩ | ⟨⟨⟩⟩) <;> omega
    rw [hsame]
    exact hs (cfgReady_iff.2 ⟨k, hc, hk7, by omega⟩)

/-! ### The invariant is kept -/

theorem micro_inv (hinv : s.Inv) (hr : s.refused = false) (hm : s.microOp = some m) (h : MicroEffect s t m) : t.Inv := by
  obtain ⟨hlegal, hreason, -, hi, hirq, -, hreg, hcfg⟩ := hinv
  obtain ⟨-, hparams, hrefused', hreason', -, hkeeps, -⟩ := micro_frame hm h
  refine ⟨hparams ▸ hlegal, ?_, ?_, micro_i_lt hm h hlegal hi, fun ht => hkeeps (hirq (micro_isIrq hm h ht)),
    micro_decode_next hm h, micro_registered hm h hreg, micro_cfgReady hm h hcfg⟩
  · rw [hrefused', hreason', hreason]
  · simp [hrefused', hr]

theorem hardReset_inv (hlegal : s.params.legal = true) : s.hardReset.Inv := by
  simp [State.Inv, hlegal, State.retryLimit, State.microOp, Ctl.isIrq, State.cfgReady]

/-- The interrupt entry keeps the invariant where the line is registered (R160): `i` is 0 when idle. -/
theorem enterIrq_inv (hinv : s.Inv) (hr : s.refused = false) (hc : s.ctl = .idle) (hg : s.irqRegistered = true) :
    s.enterIrq.Inv := by
  obtain ⟨hlegal, hreason, -, hi, -, -, hreg, -⟩ := hinv
  have hlim : s.retryLimit = s.enterIrq.retryLimit := by simp [State.retryLimit, State.microOp, hc, irqSeq]
  exact ⟨hlegal, hreason, by simp [hr], hlim ▸ hi, fun _ => hg, by simp, hreg, by simp [State.cfgReady]⟩

/-- What an idle block does with the offer (R71): INIT starts, an IRQ has its status check, the offer is refused, or it is
no request. These are the idle branches of `step_effect`, at the state `s.tick`. -/
def TakesOffer (s t : State) : Prop :=
  t = s.takeOffer.enterInit ∨ (s.irqRegistered = true ∧ t = s.takeOffer.enterIrq.istatStep) ∨
    (∃ r, t = s.takeOffer.raiseRefuse r) ∨ t = s.takeOffer

/-- The acceptance of what is offered, or its refusal, keeps the invariant (R71, R140, R160, R214). -/
theorem TakesOffer.inv (h : TakesOffer s t) (hinv : s.Inv) (hr : s.refused = false) (hc : s.ctl = .idle) : t.Inv := by
  have htaken : s.takeOffer.Inv := hinv
  rcases h with rfl | ⟨hg, rfl⟩ | ⟨r, rfl⟩ | rfl
  · obtain ⟨hlegal, hreason, -, -, -, -, hreg, -⟩ := htaken
    exact ⟨hlegal, hreason, by simp [hr], retryLimit_pos (s := s.takeOffer.enterInit) hlegal, by simp [Ctl.isIrq],
      by simp, hreg, by simp [State.cfgReady]⟩
  · exact micro_inv (enterIrq_inv htaken hr hc hg) hr (microOp_irq rfl) rfl
  · obtain ⟨hlegal, -, -, hi, hirq, hcnt, hreg, hcfg⟩ := htaken
    exact ⟨hlegal, rfl, fun _ => hc, hi, hirq, hcnt, hreg, hcfg⟩
  · exact htaken

/-- Settles O49: the reset, the acceptance of a request and the selected micro-operation each keep the invariant. -/
theorem stepKeepsInvariant : Obligations.StepKeepsInvariant := by
  intro s t hinv hstep
  have htick : s.tick.Inv := hinv
  rcases step_effect hstep with ⟨-, rfl⟩ | ⟨-, hr, hc, h⟩ | ⟨-, hr, m, hm, h⟩
  · obtain ⟨hlegal, -⟩ := htick
    exact hardReset_inv hlegal
  · exact TakesOffer.inv h htick hr hc
  · exact micro_inv htick hr hm h

/-- Settles O48: the reset state is a hard reset of itself, and the hardware's parameters are legal. -/
theorem resetMeetsInvariant : Obligations.ResetMeetsInvariant :=
  hardReset_inv (s := State.reset) rfl

/-! ### The footprint of a step -/

theorem TakesOffer.labels (h : TakesOffer s t) :
    t.trace = s.trace ∨ t.trace = s.trace ++ [.read .statusCmd (s.readValue .statusCmd)] := by
  rcases h with rfl | ⟨-, rfl⟩ | ⟨r, rfl⟩ | rfl
  · exact .inl rfl
  · exact .inr (State.istatStep_trace _)
  · exact .inl rfl
  · exact .inl rfl

/-- Settles O50: a reset adds no label, an acceptance its status read at most, a micro-operation what its frame allows. -/
theorem stepAddsOneTransactionThenOneEvent : Obligations.StepAddsOneTransactionThenOneEvent := by
  intro s t hstep
  rcases step_effect hstep with ⟨-, rfl⟩ | ⟨-, -, -, h⟩ | ⟨-, -, m, hm, h⟩
  · exact ⟨[], by simp, rfl⟩
  · rcases TakesOffer.labels h with e | e
    · exact ⟨[], by simpa using e, rfl⟩
    · exact ⟨_, e, rfl⟩
  · obtain ⟨-, -, -, -, -, -, -, -, -, -, hlabels⟩ := micro_frame hm h
    exact hlabels

/-! ### The bytes written -/

/-- Where `INIT_SEQ` holds an OUT, and its operands (R141). -/
def outEntries : List (Fin 24 × Port × OutVal) :=
  [(1, .statusCmd, .imm 0xA8), (3, .statusCmd, .imm 0x20), (8, .statusCmd, .imm 0x60), (10, .data, .cfg),
   (12, .statusCmd, .imm 0xD4), (14, .data, .imm 0xF6), (18, .statusCmd, .imm 0xD4), (20, .data, .imm 0xF4)]

theorem mem_outEntries_iff {c : Params} {k : Fin 24} {p : Port} {v : OutVal} :
    (k, p, v) ∈ outEntries ↔ initSeq c k = .out p v := by
  fin_cases k <;> simp [outEntries, initSeq, eq_comm]

/-- The labels added to a trace are given by it. -/
theorem mem_of_trace_eq {l added : List Label} {x : Label} (ht : t.trace = s.trace ++ l)
    (htrace : t.trace = s.trace ++ added) (hx : x ∈ added) : x ∈ l :=
  List.append_cancel_left (ht.symm.trans htrace) ▸ hx

theorem pollStep_writes_nothing (s : State) (ready : Byte → Bool) (kind : PollKind) :
    ∃ l, (s.pollStep ready kind).trace = s.trace ++ l ∧ ∀ p b, Label.write p b ∉ l := by
  rcases pollStep_cases s ready kind with e | ⟨-, e⟩ | ⟨-, e⟩ <;> rw [e]
  · exact ⟨_, rfl, by simp⟩
  · exact ⟨_, List.append_assoc .., by simp⟩
  · exact ⟨_, rfl, by simp⟩

theorem ackStep_writes_nothing (s : State) : ∃ l, s.ackStep.trace = s.trace ++ l ∧ ∀ p b, Label.write p b ∉ l := by
  rcases ackStep_cases s with e | ⟨-, e⟩ | ⟨n, -, -, e⟩ | ⟨n, -, -, e⟩ <;> rw [e]
  · exact ⟨_, rfl, by simp⟩
  · exact ⟨_, rfl, by simp⟩
  · rcases emitAckTimeout_cases (s.didRead .data) with e' | ⟨x, e'⟩ <;> rw [e']
    · exact ⟨_, rfl, by simp⟩
    · exact ⟨_, List.append_assoc .., by simp⟩
  · exact ⟨_, rfl, by simp⟩

/-- No label of a step but that of OUT is a write (R58, R142). -/
theorem micro_writes {added : List Label} {p : Port} {b : Byte} (hm : s.microOp = some m) (h : MicroEffect s t m)
    (htrace : t.trace = s.trace ++ added) (hw : .write p b ∈ added) :
    ∃ k v, s.ctl = .init k ∧ initSeq s.params k = .out p v ∧ b = OutVal.value s v := by
  have hadds {l : List Label} (ht : t.trace = s.trace ++ l) : .write p b ∈ l := mem_of_trace_eq ht htrace hw
  have hnone (hl : ∃ l, t.trace = s.trace ++ l ∧ ∀ p b, Label.write p b ∉ l) : False := by
    obtain ⟨l, ht, hno⟩ := hl
    exact hno p b (hadds ht)
  rcases microEffect_cases hm h with ⟨k, hc, h⟩ | ⟨-, rfl⟩ | ⟨-, rfl⟩ | ⟨-, rfl⟩
  · rcases h with ⟨-, rfl⟩ | ⟨-, rfl⟩ | ⟨-, rfl⟩ | ⟨-, rfl⟩ | ⟨-, rfl⟩ | ⟨-, rfl⟩ | ⟨q, v, e, -, rfl⟩
    · exact (hnone (pollStep_writes_nothing s _ _)).elim
    · exact (hnone (pollStep_writes_nothing s _ _)).elim
    · exact (hnone (ackStep_writes_nothing s)).elim
    · simpa using hadds rfl
    · simpa using hadds (l := []) (by simp)
    · simpa using hadds rfl
    · obtain ⟨rfl, rfl⟩ : p = q ∧ b = OutVal.value s v := by simpa using hadds rfl
      exact ⟨k, v, hc, e, rfl⟩
  · simpa using hadds (State.istatStep_trace s)
  · simpa using hadds rfl
  · cases ho : overflow s.buf.b0
    · obtain ⟨e, htr, -⟩ := decodeStep_emits_one_event ho
      simpa using hadds htr
    · simpa using hadds (l := []) (by simp [decodeStep_overflow ho])

/-- Settles O51: a write is OUT's, whose operands each entry fixes; at entry 10 the invariant gives the bit of `cfg`. -/
theorem onlyListedBytesWritten : Obligations.OnlyListedBytesWritten := by
  intro s t added p b hinv hstep htrace hw
  have hadds {l : List Label} (ht : t.trace = s.trace ++ l) : .write p b ∈ l := mem_of_trace_eq ht htrace hw
  rcases step_effect hstep with ⟨-, rfl⟩ | ⟨-, -, -, h⟩ | ⟨-, -, m, hm, h⟩
  · simpa using hadds (l := []) (by simp)
  · rcases TakesOffer.labels h with e | e
    · simpa using hadds (l := []) (by simpa using e)
    · simpa using hadds e
  · obtain ⟨k, v, hc, hout, hb⟩ := micro_writes hm h htrace hw
    replace hc : s.ctl = .init k := hc
    obtain ⟨-, -, -, -, -, -, -, hcfg⟩ := hinv
    have hbit (hk : k = 10) : bitOf s.cfg 1 = true := hcfg (cfgReady_iff.2 ⟨k, hc, by simp [hk], by simp [hk]⟩)
    have hpos := mem_outEntries_iff.2 hout
    simp only [outEntries, List.mem_cons, Prod.mk.injEq, List.not_mem_nil, or_false] at hpos
    rcases hpos with ⟨rfl, rfl, rfl⟩ | ⟨rfl, rfl, rfl⟩ | ⟨rfl, rfl, rfl⟩ | ⟨rfl, rfl, rfl⟩ | ⟨rfl, rfl, rfl⟩ |
      ⟨rfl, rfl, rfl⟩ | ⟨rfl, rfl, rfl⟩ | ⟨rfl, rfl, rfl⟩ <;> simp [hc, hb, OutVal.value, hbit]

end Sys2Proof.Machine
end

section
/-! PROOF. The writes of INIT (30_encoding.md R75, R76, 42_init.md R142), its configuration row (R79) and its registration
(R150). -/

namespace Sys2Proof.Machine

variable {s : State} {k k' : Fin 24}

/-- OUT, at an entry that holds it, writes its value and moves on (R142). -/
theorem exec_out_at {p : Port} {v : OutVal} (hr : s.refused = false) (hc : s.ctl = .init k) (hk : k'.val = k.val + 1)
    (hentry : initSeq s.params k = .out p v) :
    exec (.out p v) s = .next { s with ctl := .init k', trace := s.trace ++ [.write p (OutVal.value s v)] } :=
  exec_out_next_iff.2 ⟨hr, microOp_at hc hentry, outStep_at hc hk⟩

/-- Settles O24: the eight entries of OUT with their operands (R141). -/
theorem outWritesOnePort : Obligations.OutWritesOnePort := by
  intro s k k' hr hc hk
  refine ⟨fun p v hmem => exec_out_at hr hc hk ?_, fun h10 => exec_out_at hr hc hk ?_⟩
  · fin_cases k <;> simp at hmem <;> obtain ⟨rfl, rfl⟩ := hmem <;> rfl
  · simp [initSeq, h10]

/-- Settles O25: each row is the OUT at its entry (R75). -/
theorem controllerCommandsWritten : Obligations.ControllerCommandsWritten := by
  intro s k k' hr hc hk
  refine ⟨fun h => ?_, fun h => ?_, fun h => ?_, fun h => ?_⟩
  · exact exec_ctrlEnableAux_next_iff.2 ⟨hr, microOp_at hc (by simp [initSeq, h]), outStep_at hc hk⟩
  · exact exec_ctrlReadConfig_next_iff.2 ⟨hr, microOp_at hc (by simp [initSeq, h]), outStep_at hc hk⟩
  · exact exec_ctrlWriteConfig_next_iff.2 ⟨hr, microOp_at hc (by simp [initSeq, h]), outStep_at hc hk⟩
  · have hentry : initSeq s.params k = .out .statusCmd (.imm 0xD4) := by rcases h with h | h <;> simp [initSeq, h]
    exact exec_ctrlWriteAux_next_iff.2 ⟨hr, microOp_at hc hentry, outStep_at hc hk⟩

/-- Settles O26: each row is the OUT at its entry (R76). -/
theorem mouseCommandsWritten : Obligations.MouseCommandsWritten := by
  intro s k k' hr hc hk
  refine ⟨fun h => ?_, fun h => ?_⟩
  · exact exec_auxSetDefaults_next_iff.2 ⟨hr, microOp_at hc (by simp [initSeq, h]), outStep_at hc hk⟩
  · exact exec_auxEnableReporting_next_iff.2 ⟨hr, microOp_at hc (by simp [initSeq, h]), outStep_at hc hk⟩

/-- Settles O29: the byte that CFG_OR leaves has bit 1 set, so that its row is selected with it (R84). -/
theorem cfgRowCompletesAsCfgOr : Obligations.CfgRowCompletesAsCfgOr := by
  intro s hr hc
  have hm : s.microOp = some (.cfgOr 0x02) := microOp_at hc rfl
  have hbit : (s.cfg ||| 0x02) &&& 0x02 = 0x02 := by
    rw [mask_irq12]
    exact (bitOf_cfgWith_irq12 s.cfg 1).trans (by simp)
  have hrow := exec_cfgIrq12En_next_iff.2 ⟨hr, ⟨hm, hbit, rfl⟩, rfl⟩
  exact ⟨hrow, hrow.trans (exec_cfgOr_next_iff.2 ⟨hr, hm, rfl⟩).symm⟩

/-- Settles O30: entry 23 holds REGIRQ with the two parameters (R141, R150). -/
theorem regirqRegistersTheLine : Obligations.RegirqRegistersTheLine :=
  ⟨fun _ hr hc => exec_regirq_next_iff.2 ⟨hr, microOp_at hc rfl, rfl⟩, rfl, rfl⟩

end Sys2Proof.Machine
end

section
/-! PROOF. The control of the machine: what a step runs and that it completes (30_encoding.md R71, R86, 60_exceptions.md
R214, R215), the reset (70_reset_and_hazards.md R230), how operations follow each other (R30) and which registers an
instruction may write (10_state.md R33). -/

namespace Sys2Proof.Machine

variable {s t : State} {i m : Instr}

/-! ### What a step runs -/

/-- Settles O5: each entry of the two sequences, looked up. -/
theorem microOperationPositions : Obligations.MicroOperationPositions := by
  refine ⟨fun c k => ?_, by decide⟩
  fin_cases k <;> simp [initSeq]

/-- The interface decodes an offered code as the request row that spells it (R72). -/
theorem decodeRequest_of_decode (op : BitVec 2) (h : decode .request (op.setWidth 8) = some i) : decodeRequest op = i := by
  have hrows : ∀ op : BitVec 2, decode .request (op.setWidth 8) = some (decodeRequest op) := by decide
  simpa [hrows op] using h

/-- Settles O43: in each case the fetched instruction is the one named. -/
theorem stepRunsSelectedInstruction : Obligations.StepRunsSelectedInstruction := by
  intro s hr hreset
  have hrun (j : Instr) (hf : s.tick.fetch = j) : step s = exec j { s with resetIn := s.resetIn.tail } := by
    rw [step_runs hr hreset, hf]
    rfl
  refine ⟨fun op rest j hc hq hdec => hrun j ?_, fun op rest hc hq => hrun _ ?_, fun hc hq => hrun _ ?_,
    fun k hc => hrun _ ?_, fun k hc => hrun _ ?_⟩
  · simp [State.fetch, State.offered, hc, hq, decodeRequest_of_decode op hdec]
  · simp [State.fetch, State.offered, hc, hq]
  · simp [State.fetch, State.offered, hc, hq]
  · simp [State.fetch, hc]
  · simp [State.fetch, hc]

/-! ### A step completes -/

/-- Idle and not refused, every request answers a next state (R71 to R73). -/
theorem request_completes (hr : s.refused = false) (hi : i = .init ∨ i = .irq ∨ i = .reservedRequest ∨ i = .nopRequest) :
    ∃ t, exec i s = .next t := by
  have hguard (u : State) : ∃ t, onRequest s u = .next t := by
    by_cases hc : s.ctl = .idle
    · exact ⟨u, onRequest_idle hr hc⟩
    · exact ⟨s, onRequest_busy hr hc⟩
  rcases hi with rfl | rfl | rfl | rfl <;> exact hguard _

/-- What the state selects completes, busy or idle. -/
theorem fetch_completes (hr : s.refused = false) : ∃ t, exec s.fetch s = .next t := by
  by_cases hc : s.ctl = .idle
  · exact request_completes hr (fetch_of_idle hc)
  · exact exec_selected_completes hr (microOp_of_busy hc)

/-- A state that is not refused has a step: the reset, or the selected instruction (R215). -/
theorem step_completes (hr : s.refused = false) : ∃ t, step s = .next t := by
  by_cases hh : s.resetIn.head? = some true
  · exact ⟨_, step_reset hh⟩
  · rw [step_runs hr hh]
    exact fetch_completes (s := s.tick) hr

/-- Settles O44: a refused state is reset or has no step, and any other completes its step. -/
theorem stepNeverFaults : Obligations.StepNeverFaults := by
  intro s r
  cases hr : s.refused
  · obtain ⟨t, ht⟩ := step_completes hr
    simp [ht]
  · by_cases hh : s.resetIn.head? = some true
    · simp [step_reset hh]
    · simp [step_refused hr hh]

/-- Settles O55: a busy block completes its step, and code 00 at rest takes nothing where nothing is listed. -/
theorem busyStepsAndRestStays : Obligations.BusyStepsAndRestStays := by
  intro s hr
  refine ⟨fun _ => step_completes hr, fun hc hq hn => ?_⟩
  have hf : s.fetch = .nopRequest := by simp [State.fetch, State.offered, hc, hq]
  have htake : s.takeOffer = s := by cases s; simp_all [State.takeOffer]
  exact step_of_fetch hr hn hf ((onRequest_idle hr hc).trans (congrArg _ htake))

/-! ### The reset -/

/-- Settles O46: the step is the hard reset, whatever else the state holds. -/
theorem resetFromAnyState : Obligations.ResetFromAnyState :=
  fun _ hh => ⟨_, step_reset hh, rfl, rfl, rfl, rfl, rfl, rfl, rfl, rfl, rfl, rfl, rfl, rfl, rfl⟩

/-- Settles O47, field by field. -/
theorem resetStateValues : Obligations.ResetStateValues :=
  ⟨rfl, rfl, rfl, rfl, rfl, rfl, rfl⟩

/-! ### Operations follow each other -/

/-- Settles O52: the moves of `ctl` in the reset, in each acceptance and in each micro-operation. -/
theorem operationsDoNotInterleave : Obligations.OperationsDoNotInterleave := by
  intro s t hstep
  rcases step_effect hstep with ⟨-, rfl⟩ | ⟨-, -, hc, h⟩ | ⟨-, -, m, hm, h⟩
  · exact ⟨fun _ => .inr rfl, fun _ => .inr rfl, fun _ => .inl rfl⟩
  · refine ⟨by simp [hc, Ctl.isInit], by simp [hc, Ctl.isIrq], fun _ => ?_⟩
    rcases h with rfl | ⟨hg, rfl⟩ | ⟨r, rfl⟩ | rfl
    · exact .inr (.inl rfl)
    · rcases istatStep_cases s.tick.takeOffer.enterIrq with e | e <;> simp [e, hg]
    · exact .inl hc
    · exact .inl hc
  · rcases micro_ctl hm h with ⟨k, hc, hk⟩ | ⟨hirq, hk⟩
    · replace hc : s.ctl = .init k := hc
      refine ⟨fun _ => ?_, by simp [hc, Ctl.isIrq], by simp [hc]⟩
      rcases hk with hk | hk <;> rw [hk]
      · exact .inl rfl
      · simp only [Ctl.next]
        split <;> simp [Ctl.isInit]
    · obtain ⟨k, hc⟩ := Ctl.isIrq_iff.1 hirq
      replace hc : s.ctl = .irq k := hc
      refine ⟨by simp [hc, Ctl.isInit], fun _ => ?_, by simp [hc]⟩
      rcases hk with hk | hk | ⟨hk, -⟩ <;> simp [hk, Ctl.isIrq]

/-! ### Which registers an instruction may write -/

/-- A request writes no register of the assembler, of the sequencer only `ctl` and `i`, and `refused` when idle (R71). -/
theorem request_frame (h : RequestEffect s t) :
    t.buf = s.buf ∧ t.cnt = s.cnt ∧ t.leftPressed = s.leftPressed ∧ t.rightPressed = s.rightPressed ∧ t.cfg = s.cfg ∧
      t.irqRegistered = s.irqRegistered ∧ t.params = s.params ∧ t.resetIn = s.resetIn ∧
      (t.refused ≠ s.refused → s.ctl = .idle) := by
  rcases h with ⟨-, rfl⟩ | ⟨hc, h⟩
  · simp
  · rcases h with rfl | ⟨-, rfl⟩ | ⟨r, rfl⟩ | rfl <;> simp [hc]

/-- Settles O53, from the frames of the requests and of the micro-operations. -/
theorem assemblerWrittenOnlyByItsRules : Obligations.AssemblerWrittenOnlyByItsRules := by
  intro i s t h
  obtain ⟨-, h | ⟨m, hm, h⟩⟩ := exec_effect h
  · obtain ⟨hbuf, hcnt, hleft, hright, -⟩ := request_frame h
    simp [hbuf, hcnt, hleft, hright]
  · obtain ⟨-, -, -, -, -, -, -, -, hflags, hpacket, -⟩ := micro_frame hm h
    exact ⟨hflags, hpacket⟩

/-- Settles O54, from the frames of the requests and of the micro-operations. -/
theorem sequencerWrittenOnlyByItsRules : Obligations.SequencerWrittenOnlyByItsRules := by
  intro i s t h
  obtain ⟨-, h | ⟨m, hm, h⟩⟩ := exec_effect h
  · obtain ⟨-, -, -, -, hcfg, hreg, hparams, hreset, hrefused⟩ := request_frame h
    exact ⟨absurd hcfg, absurd hreg, hrefused, hparams, hreset⟩
  · obtain ⟨-, hparams, hrefused, -, hreset, -, hreg, hcfg, -⟩ := micro_frame hm h
    exact ⟨hcfg, hreg, absurd hrefused, hparams, hreset⟩

end Sys2Proof.Machine
end

section
/-! PROOF. What the state does not select (30_encoding.md R86): every instruction but a request stops there, by name. -/

namespace Sys2Proof.Machine

variable {s : State} {i m : Instr} {b : Byte}

/-! ### The control state that selects an instruction -/

theorem microOp_eq_some_iff :
    s.microOp = some m ↔ (∃ k, s.ctl = .init k ∧ initSeq s.params k = m) ∨ ∃ k, s.ctl = .irq k ∧ irqSeq k = m := by
  cases hc : s.ctl with
  | idle => simp [microOp_idle hc]
  | init k => simp [microOp_init hc]
  | irq k => simp [microOp_irq hc]

theorem ctl_of_out {p : Port} {v : OutVal} (hm : s.microOp = some (.out p v)) :
    ∃ e ∈ outEntries, s.ctl = .init e.1 ∧ e.2 = (p, v) := by
  rcases microOp_eq_some_iff.1 hm with ⟨k, hc, hk⟩ | ⟨k, -, hk⟩
  · exact ⟨(k, p, v), mem_outEntries_iff.2 hk, hc, rfl⟩
  · fin_cases k <;> cases hk

theorem ctl_of_cfgOr (hm : s.microOp = some (.cfgOr b)) : s.ctl = .init 6 := by
  rcases microOp_eq_some_iff.1 hm with ⟨k, hc, hk⟩ | ⟨k, -, hk⟩
  · fin_cases k <;> cases hk
    exact hc
  · fin_cases k <;> cases hk

theorem ctl_of_irqSeq {k : Fin 3} (hm : s.microOp = some (irqSeq k)) : s.ctl = .irq k := by
  rcases microOp_eq_some_iff.1 hm with ⟨j, -, hj⟩ | ⟨j, hc, hj⟩
  · fin_cases j <;> fin_cases k <;> cases hj
  · have hinj : ∀ j k : Fin 3, irqSeq j = irqSeq k → j = k := by decide
    rw [hc, hinj j k hj]

/-- The entries of the two SENDs (R120). -/
theorem ctl_of_enclosingSend (h : s.enclosingSend.map Prod.fst = some b) :
    ∃ k, s.ctl = .init k ∧ (b = 0xF6 ∧ 11 ≤ k.val ∧ k.val ≤ 16 ∨ b = 0xF4 ∧ 17 ≤ k.val ∧ k.val ≤ 22) := by
  cases hc : s.ctl with
  | idle => simp [State.enclosingSend, hc] at h
  | irq k => simp [State.enclosingSend, hc] at h
  | init k =>
    refine ⟨k, rfl, ?_⟩
    simp only [State.enclosingSend, hc, sendAt] at h
    split at h
    · next hk => exact .inl ⟨by simpa [eq_comm] using h, hk⟩
    · split at h
      · next hk => exact .inr ⟨by simpa [eq_comm] using h, hk⟩
      · cases h

/-! ### The stops -/

theorem mask_writeReady (b : Byte) : b &&& 0x02 = 0x00 ↔ bitOf b 1 = false := by revert b; decide
theorem mask_readReady (b : Byte) : b &&& 0x01 = 0x01 ↔ bitOf b 0 = true := by revert b; decide

theorem releaseEdge_eq_true_iff (flag bit : Bool) : releaseEdge flag bit = true ↔ bit = false ∧ flag = true := by
  cases flag <;> cases bit <;> decide

/-- A micro-operation stops where `ctl` does not name it (R86). -/
theorem microOp_stops (hr : s.refused = false)
    (hi : i = .waitw ∨ i = .waitr ∨ i = .ackloop ∨ (∃ p v, i = .out p v) ∨ i = .inCfg ∨ i = .cfgOr b ∨
      (∃ line dest, i = .regirq line dest) ∨ i = .istat ∨ i = .idata ∨ i = .decode)
    (hm : s.microOp ≠ some i) : exec i s = .fault .notSelected := by
  rcases hi with rfl | rfl | rfl | ⟨p, v, rfl⟩ | rfl | rfl | ⟨line, dest, rfl⟩ | rfl | rfl | rfl <;>
    exact runIf_not_selected hr hm

/-- Idle, nothing but a request is selected. -/
theorem idle_stops (hr : s.refused = false) (hi : i ∉ [.init, .irq, .reservedRequest, .nopRequest])
    (hc : s.ctl = .idle) : exec i s = .fault .notSelected := by
  have hm := microOp_idle hc
  cases i with
  | init | irq | reservedRequest | nopRequest => simp at hi
  | send => exact runIf_not_selected hr (by simp [State.enclosingSend, hc])
  | _ => exact runIf_not_selected hr (by simp [hm])

/-- A packet row is not selected away from DECODE, for another byte, or where its own test p fails. -/
theorem not_decoding {p : Prop} (h : s.ctl ≠ .irq 2 ∨ s.buf.b0 ≠ b ∨ ¬p) : ¬(s.decoding b ∧ p) := by
  rintro ⟨⟨hm, hb⟩, hp⟩
  rcases h with hc | hne | hnot
  · exact hc (ctl_of_irqSeq (k := 2) hm)
  · exact hne hb
  · exact hnot hp

/-- Settles O45: each guard, refuted by the control state, the byte or the flag. -/
theorem unselectedInstructionStops : Obligations.UnselectedInstructionStops := by
  intro s i b hr
  refine ⟨microOp_stops hr, fun h => ?_, fun h => ?_, fun h => ?_, fun h => ?_, fun h h' => ?_, fun h => ?_, fun h => ?_,
    fun h => ?_, fun h => ?_, fun h => ?_, fun h => ?_, fun h => ?_, fun h => ?_, fun h => ?_, fun h => ?_, fun h => ?_,
    fun h => ?_, fun h => ?_, fun h => ?_, idle_stops hr⟩
  · refine runIf_not_selected hr fun hs => ?_
    obtain ⟨k, hc, hk⟩ := ctl_of_enclosingSend hs
    exact hk.elim (h k hc).1 (h k hc).2
  · exact runIf_not_selected hr fun hm => h (by simpa [outEntries] using ctl_of_out hm)
  · exact runIf_not_selected hr fun hm => h (by simpa [outEntries] using ctl_of_out hm)
  · exact runIf_not_selected hr fun hm => h (by simpa [outEntries] using ctl_of_out hm)
  · have hne : ¬(s.ctl = .init 12 ∨ s.ctl = .init 18) := not_or.2 ⟨h, h'⟩
    exact runIf_not_selected hr fun hm => hne (by simpa [outEntries] using ctl_of_out hm)
  · exact runIf_not_selected hr fun hm => h (by simpa [outEntries] using ctl_of_out hm)
  · exact runIf_not_selected hr fun hm => h (by simpa [outEntries] using ctl_of_out hm)
  · exact runIf_not_selected hr fun ⟨hm, hd⟩ => h.elim (· hm) (· hd)
  · exact runIf_not_selected hr (by rwa [not_and_or, not_and_or, mask_writeReady, Bool.not_eq_false])
  · exact runIf_not_selected hr (by rwa [not_and_or, not_and_or, mask_readReady, Bool.not_eq_true])
  · have h' := h.imp_left (mt (ctl_of_irqSeq (k := 0)))
    exact runIf_not_selected hr (by rwa [not_and_or, not_and_or, mask_readReady, Bool.not_eq_true])
  · exact runIf_not_selected hr fun ⟨hm, _, hb⟩ => h.elim (· (ctl_of_cfgOr hm)) (· hb.symm)
  · exact runIf_not_selected hr (not_decoding (by rwa [mask_yovf, Bool.not_eq_true]))
  · exact runIf_not_selected hr (not_decoding (by rwa [mask_xovf, Bool.not_eq_true]))
  · exact runIf_not_selected hr (not_decoding h)
  · exact runIf_not_selected hr (not_decoding h)
  · exact runIf_not_selected hr (not_decoding (by rwa [not_and_or, Bool.not_eq_false, releaseEdge_eq_true_iff]))
  · exact runIf_not_selected hr (not_decoding (by rwa [not_and_or, Bool.not_eq_false, releaseEdge_eq_true_iff]))
  · refine runIf_not_selected hr (not_decoding ?_)
    rwa [not_and_or, not_and_or, Bool.not_eq_false, Bool.not_eq_false, releaseEdge_eq_true_iff, releaseEdge_eq_true_iff]

end Sys2Proof.Machine
end

section
/-! PROOF. The packet assembler and decoder (43_packet.md), case by case: the store and the counter (R163, R164), the
branches of the decode (R170 to R176) and the bits that no test reads (R85, R177); and the length of an IRQ (R161). -/

namespace Sys2Proof.Machine

variable {s t : State} {b b' : Byte}

/-! ### The store -/

/-- Settles O35, for each value of the counter (R163, R164). -/
theorem idataStoresAndCounts : Obligations.IdataStoresAndCounts := by
  intro s hr hc
  refine ⟨fun hcnt => ?_, fun hcnt => ?_, fun hcnt => ?_⟩ <;>
    refine exec_idata_next_iff.2 ⟨hr, microOp_irq hc, ?_⟩ <;>
    simp [State.counterStep, State.storeByte, PacketBuf.set, nextCount, hcnt]

/-! ### The branches of the decode -/

theorem exec_decode_at (hr : s.refused = false) (hc : s.ctl = .irq 2) : exec .decode s = .next s.decodeStep :=
  exec_decode_next_iff.2 ⟨hr, microOp_irq hc, rfl⟩

/-- No overflow and no left release edge: the left flag holds its bit, and the right-button step is next (R173, R180). -/
theorem decodeStep_passes_left (ho : overflow s.buf.b0 = false) (hl : leftBit s.buf.b0 = true ∨ s.leftPressed = false) :
    s.decodeStep = State.rightStep { s with leftPressed := leftBit s.buf.b0 } := by
  rw [← leftStored_eq hl, ← leftStep_passes hl]
  simp [State.decodeStep, ho]

/-- Settles O36: overflow, the two release edges and the motion, in the order of the decode (R170). -/
theorem decodeDispatchesOneEvent : Obligations.DecodeDispatchesOneEvent := by
  intro s hr hc
  rw [exec_decode_at hr hc]
  refine ⟨fun ho => ?_, fun h7 h6 => ?_⟩
  · rw [decodeStep_overflow ((overflow_eq_true_iff _).2 ho)]
    rfl
  · have ho : overflow s.buf.b0 = false := (overflow_eq_false_iff _).2 ⟨h7, h6⟩
    refine ⟨fun hb hl => ?_, fun hl hb hright => ?_, fun hl hright => ?_⟩
    · rw [decodeStep_leftClick ho hb hl]
      rfl
    · rw [decodeStep_passes_left ho hl, rightStep_click (by exact hb) (by exact hright)]
      rfl
    · rw [decodeStep_passes_left ho hl, rightStep_passes (by exact hright), rightStored_eq (by exact hright),
        ← sext8_eq_toInt, ← sext8_eq_toInt]
      rfl

/-- Settles O37: each row's next state is the decode's (R171 to R176). -/
theorem packetRowsAreDecodeBranches : Obligations.PacketRowsAreDecodeBranches := by
  intro s b hr hc hb
  have hm : s.decoding b := ⟨microOp_irq hc, hb⟩
  have hleft (h : bitOf b 0 = true ∨ s.leftPressed = false) : releaseEdge s.leftPressed (leftBit b) = false :=
    (releaseEdge_eq_false_iff _ _).2 h
  have hright (h : bitOf b 1 = true ∨ s.rightPressed = false) : releaseEdge s.rightPressed (rightBit b) = false :=
    (releaseEdge_eq_false_iff _ _).2 h
  refine ⟨s.decodeStep, exec_decode_at hr hc, fun h => ?_, fun h => ?_, fun h => ?_, fun h => ?_, fun h hl => ?_,
    fun h hl => ?_, fun h hl hr' => ?_⟩
  · exact exec_pktYovf_next_iff.2 ⟨hr, ⟨hm, h⟩, packet_row_is_decode hm (.inl ⟨h, rfl⟩)⟩
  · exact exec_pktXovf_next_iff.2 ⟨hr, ⟨hm, h⟩, packet_row_is_decode hm (.inr (.inl ⟨h, rfl⟩))⟩
  · exact exec_pktLbtnPressed_next_iff.2 ⟨hr, ⟨hm, h⟩, packet_row_is_decode hm (.inr (.inr (.inl ⟨h, rfl⟩)))⟩
  · exact exec_pktLbtnReleased_next_iff.2 ⟨hr, ⟨hm, h⟩, packet_row_is_decode hm (.inr (.inr (.inr (.inl ⟨h, rfl⟩))))⟩
  · exact exec_pktRbtnPressed_next_iff.2 ⟨hr, ⟨hm, h, hleft hl⟩,
      packet_row_is_decode hm (.inr (.inr (.inr (.inr (.inl ⟨h, hleft hl, rfl⟩)))))⟩
  · exact exec_pktRbtnReleased_next_iff.2 ⟨hr, ⟨hm, h, hleft hl⟩,
      packet_row_is_decode hm (.inr (.inr (.inr (.inr (.inr (.inl ⟨h, hleft hl, rfl⟩))))))⟩
  · exact exec_pktMove_next_iff.2 ⟨hr, ⟨hm, h, hleft hl, hright hr'⟩,
      packet_row_is_decode hm (.inr (.inr (.inr (.inr (.inr (.inr ⟨h, hleft hl, hright hr', rfl⟩))))))⟩

/-! ### The bits that no test reads -/

/-- Two bytes that agree under a mask agree on each bit of the mask. -/
theorem bitOf_eq_of_and_eq {mask : Byte} {n : Nat} (h : b &&& mask = b' &&& mask) (hn : bitOf mask n = true) :
    bitOf b' n = bitOf b n := by
  have hbit := congrArg (bitOf · n) h
  simp only [bitOf] at hbit hn ⊢
  simpa [hn] using hbit.symm

/-- Settles O38: the four cases of the decode are told apart by bits 0, 1, 6 and 7 alone (R177). -/
theorem decodeIgnoresBitsTwoToFive : Obligations.DecodeIgnoresBitsTwoToFive := by
  intro s t b b' hbits h
  have h0 : bitOf b' 0 = bitOf b 0 := bitOf_eq_of_and_eq hbits rfl
  have h1 : bitOf b' 1 = bitOf b 1 := bitOf_eq_of_and_eq hbits rfl
  have h6 : bitOf b' 6 = bitOf b 6 := bitOf_eq_of_and_eq hbits rfl
  have h7 : bitOf b' 7 = bitOf b 7 := bitOf_eq_of_and_eq hbits rfl
  obtain ⟨hr, hm, -⟩ := exec_decode_next_iff.1 h
  have hc := ctl_of_irqSeq (k := 2) hm
  obtain ⟨hover, hdecode⟩ := decodeDispatchesOneEvent _ hr hc
  obtain ⟨hover', hdecode'⟩ := decodeDispatchesOneEvent { s with buf := { s.buf with b0 := b' } } hr hc
  simp only [h0, h1, h6, h7] at hover' hdecode'
  by_cases ho : bitOf b 7 = true ∨ bitOf b 6 = true
  · cases h.symm.trans (hover ho)
    exact hover' ho
  · obtain ⟨ho7, ho6⟩ : bitOf b 7 = false ∧ bitOf b 6 = false := by simpa using ho
    obtain ⟨hleft, hright, hmove⟩ := hdecode ho7 ho6
    obtain ⟨hleft', hright', hmove'⟩ := hdecode' ho7 ho6
    by_cases hl : bitOf b 0 = true ∨ s.leftPressed = false
    · by_cases hrt : bitOf b 1 = true ∨ s.rightPressed = false
      · cases h.symm.trans (hmove hl hrt)
        exact hmove' hl hrt
      · obtain ⟨hb1, hpressed⟩ : bitOf b 1 = false ∧ s.rightPressed = true := by simpa using hrt
        cases h.symm.trans (hright hl hb1 hpressed)
        exact hright' hl hb1 hpressed
    · obtain ⟨hb0, hpressed⟩ : bitOf b 0 = false ∧ s.leftPressed = true := by simpa using hl
      cases h.symm.trans (hleft hb0 hpressed)
      exact hleft' hb0 hpressed

/-- The block is about to read the status byte b, and rest after it. -/
abbrev State.answering (s : State) (b : Byte) (rest : List Byte) : State := { s with statusIn := b :: rest }

/-- The states t and t' are reached by the same labels but for the status byte read first, and agree in everything else. -/
def DifferInRead (s t t' : State) (b b' : Byte) : Prop :=
  ∃ after, t.trace = s.trace ++ .read .statusCmd b :: after ∧ t'.trace = s.trace ++ .read .statusCmd b' :: after ∧
    { t' with trace := t.trace } = t

/-- A wait depends on the status byte by its test alone (R101, R103). -/
theorem pollStep_differs {ready : Byte → Bool} {kind : PollKind} {rest : List Byte} (h : ready b' = ready b) :
    DifferInRead s ((s.answering b rest).pollStep ready kind) ((s.answering b' rest).pollStep ready kind) b b' := by
  cases hv : ready b
  · by_cases hi : s.i + 1 = s.params.pollBound
    · rw [pollStep_timeout (s := s.answering b rest) hv hi, pollStep_timeout (s := s.answering b' rest) (h.trans hv) hi,
        didRead_status_cons rfl, didRead_status_cons rfl]
      exact ⟨[.ev (.pollTimeout kind)], by simp, by simp, rfl⟩
    · rw [pollStep_retry (s := s.answering b rest) hv hi, pollStep_retry (s := s.answering b' rest) (h.trans hv) hi,
        didRead_status_cons rfl, didRead_status_cons rfl]
      exact ⟨[], rfl, rfl, rfl⟩
  · rw [pollStep_ready (s := s.answering b rest) hv, pollStep_ready (s := s.answering b' rest) (h.trans hv),
      didRead_status_cons rfl, didRead_status_cons rfl]
    exact ⟨[], rfl, rfl, rfl⟩

/-- The status check depends on the status byte by its test alone (R162). -/
theorem istatStep_differs {rest : List Byte} (h : irqData b' = irqData b) :
    DifferInRead s (s.answering b rest).istatStep (s.answering b' rest).istatStep b b' := by
  cases hv : irqData b
  · rw [istatStep_spurious (s := s.answering b rest) hv, istatStep_spurious (s := s.answering b' rest) (h.trans hv),
      didRead_status_cons rfl, didRead_status_cons rfl]
    exact ⟨[], rfl, rfl, rfl⟩
  · rw [istatStep_data (s := s.answering b rest) hv, istatStep_data (s := s.answering b' rest) (h.trans hv),
      didRead_status_cons rfl, didRead_status_cons rfl]
    exact ⟨[], rfl, rfl, rfl⟩

/-- Settles O39: the three tests read bits 0 and 1 of the status alone (R78). -/
theorem statusBitsTwoToSevenIgnored : Obligations.StatusBitsTwoToSevenIgnored := by
  intro s t b b' rest i hbits hi h
  have h0 : bitOf b' 0 = bitOf b 0 := bitOf_eq_of_and_eq hbits rfl
  have h1 : bitOf b' 1 = bitOf b 1 := bitOf_eq_of_and_eq hbits rfl
  have hwrite : writeReady b' = writeReady b := by rw [writeReady_eq_bit, writeReady_eq_bit, h1]
  have hread : readReady b' = readReady b := by rw [readReady_eq_bit, readReady_eq_bit, h0]
  have hdata : irqData b' = irqData b := by rw [irqData_eq_bit, irqData_eq_bit, h0]
  rcases hi with rfl | rfl | rfl | ⟨rfl, hc, hg⟩
  · obtain ⟨hr, hm, rfl⟩ := exec_waitw_next_iff.1 h
    obtain ⟨after, hdiff⟩ := pollStep_differs (kind := .write) hwrite
    exact ⟨_, after, exec_waitw_next_iff.2 ⟨hr, hm, rfl⟩, hdiff⟩
  · obtain ⟨hr, hm, rfl⟩ := exec_waitr_next_iff.1 h
    obtain ⟨after, hdiff⟩ := pollStep_differs (kind := .read) hread
    exact ⟨_, after, exec_waitr_next_iff.2 ⟨hr, hm, rfl⟩, hdiff⟩
  · obtain ⟨hr, hm, rfl⟩ := exec_istat_next_iff.1 h
    obtain ⟨after, hdiff⟩ := istatStep_differs hdata
    exact ⟨_, after, exec_istat_next_iff.2 ⟨hr, hm, rfl⟩, hdiff⟩
  · obtain ⟨hr, ⟨-, rfl⟩ | ⟨hbusy, -⟩⟩ := exec_irq_next_iff.1 h
    · obtain ⟨after, hdiff⟩ := istatStep_differs (s := s.takeOffer.enterIrq) hdata
      rw [if_pos (by exact hg)]
      exact ⟨_, after, exec_irq_next_iff.2 ⟨hr, .inl ⟨hc, if_pos hg⟩⟩, hdiff⟩
    · exact absurd hc hbusy

/-! ### The length of an IRQ -/

/-- The block runs, and no reset is to come. -/
structure State.Undisturbed (s : State) : Prop where
  notRefused : s.refused = false
  noReset : true ∉ s.resetIn

/-- A step of a selected micro-operation leaves the block running. -/
theorem State.Undisturbed.of_micro {m : Instr} (h : s.Undisturbed) (hm : s.tick.microOp = some m)
    (heff : MicroEffect s.tick t m) : t.Undisturbed := by
  obtain ⟨-, -, hrefused, -, hreset, -⟩ := micro_frame hm heff
  refine ⟨hrefused.trans h.notRefused, ?_⟩
  rw [hreset]
  exact fun hmem => h.noReset (List.mem_of_mem_tail hmem)

theorem istatStep_ctl (s : State) :
    s.istatStep.ctl = if bitOf (s.readValue .statusCmd) 0 = true then .irq 1 else .idle := by
  cases hb : bitOf (s.readValue .statusCmd) 0
  · rw [istatStep_spurious ((irqData_eq_bit _).trans hb)]
    rfl
  · rw [istatStep_data ((irqData_eq_bit _).trans hb)]
    rfl

/-- The first step of an IRQ is its status check, from the acceptance or from IRQ(0) (R71, R162). -/
theorem State.Undisturbed.first_step (h : s.Undisturbed)
    (hs : (s.ctl = .idle ∧ s.irqRegistered = true ∧ s.requests.head? = some ⟨true, 2⟩) ∨ s.ctl = .irq 0) :
    ∃ t, step s = .next t ∧ t.Undisturbed ∧ t.cnt = s.cnt ∧
      t.ctl = if bitOf (s.readValue .statusCmd) 0 = true then .irq 1 else .idle := by
  obtain ⟨t, hstep⟩ := step_completes h.notRefused
  have hreset := resetIn_head_ne_of_not_mem h.noReset
  have hrest : true ∉ s.resetIn.tail := fun hmem => h.noReset (List.mem_of_mem_tail hmem)
  obtain ⟨u, rfl, hrefused, hresetIn, hcnt, hread⟩ : ∃ u : State, t = u.istatStep ∧ u.refused = s.refused ∧
      u.resetIn = s.resetIn.tail ∧ u.cnt = s.cnt ∧ u.readValue .statusCmd = s.readValue .statusCmd := by
    rcases hs with ⟨hc, hg, hq⟩ | hc
    · exact ⟨_, step_accepts_irq hreset hc hg hq hstep, rfl, rfl, rfl, rfl⟩
    · exact ⟨s.tick, step_effect_at_irq hreset hc hstep, rfl, rfl, rfl, rfl⟩
  refine ⟨_, hstep, ⟨?_, ?_⟩, ?_, ?_⟩
  · simp [hrefused, h.notRefused]
  · simpa [hresetIn] using hrest
  · simpa using hcnt
  · rw [istatStep_ctl, hread]

/-- A later step of an IRQ: the entry that `ctl` names. -/
theorem State.Undisturbed.irq_step {k : Fin 3} (h : s.Undisturbed) (hc : s.ctl = .irq k) :
    ∃ t, step s = .next t ∧ t.Undisturbed ∧ MicroEffect s.tick t (irqSeq k) := by
  obtain ⟨t, hstep⟩ := step_completes h.notRefused
  have heff := step_effect_at_irq (resetIn_head_ne_of_not_mem h.noReset) hc hstep
  exact ⟨t, hstep, h.of_micro (microOp_irq hc) heff, heff⟩

/-- IDATA ends the IRQ unless it has stored the third byte (R164). -/
theorem State.Undisturbed.idata_step (h : s.Undisturbed) (hc : s.ctl = .irq 1) :
    ∃ t, step s = .next t ∧ t.Undisturbed ∧ t.ctl = if s.cnt.val < 2 then .idle else .irq 2 := by
  obtain ⟨t, hstep, ht, heff⟩ := h.irq_step hc
  refine ⟨t, hstep, ht, ?_⟩
  rw [show t = _ from heff]
  simp

theorem State.Undisturbed.decode_step (h : s.Undisturbed) (hc : s.ctl = .irq 2) :
    ∃ t, step s = .next t ∧ t.Undisturbed ∧ t.ctl = .idle := by
  obtain ⟨t, hstep, ht, heff⟩ := h.irq_step hc
  exact ⟨t, hstep, ht, (congrArg State.ctl heff).trans (decodeStep_ctl s.tick)⟩

/-- Settles O41: one step after another, to the first that ends the IRQ (R161). -/
theorem irqEndsWithinThreeSteps : Obligations.IrqEndsWithinThreeSteps := by
  intro s hr hreset hs
  obtain ⟨t₁, hstep₁, h₁, hcnt₁, hctl₁⟩ := State.Undisturbed.first_step ⟨hr, hreset⟩ hs
  have hrun₁ : run 1 s = .next t₁ := run_succ_of_step hstep₁
  cases hb : bitOf (s.readValue .statusCmd) 0
  · rw [if_neg (by simp [hb])] at hctl₁
    exact ⟨1, t₁, hrun₁, hctl₁, h₁.notRefused, by decide, by decide, by simp, by simp, by simp, by omega⟩
  · rw [if_pos hb] at hctl₁
    obtain ⟨t₂, hstep₂, h₂, hctl₂⟩ := h₁.idata_step hctl₁
    have hrun₂ : run 2 s = .next t₂ := (run_succ_of_step hstep₁).trans (run_succ_of_step hstep₂)
    by_cases hcnt : s.cnt = 2
    · rw [hcnt₁, hcnt, if_neg (by decide)] at hctl₂
      obtain ⟨t₃, hstep₃, h₃, hctl₃⟩ := h₂.decode_step hctl₂
      have hrun₃ : run 3 s = .next t₃ := (run_add (m := 1) hrun₂).trans (run_succ_of_step hstep₃)
      refine ⟨3, t₃, hrun₃, hctl₃, h₃.notRefused, by decide, by decide, by simp, by simp [hcnt], by simp, ?_⟩
      intro m u hpos hlt hrun
      obtain rfl | rfl : m = 1 ∨ m = 2 := by omega
      · cases hrun₁.symm.trans hrun
        simp [hctl₁]
      · cases hrun₂.symm.trans hrun
        simp [hctl₂]
    · rw [hcnt₁, if_pos (by omega)] at hctl₂
      refine ⟨2, t₂, hrun₂, hctl₂, h₂.notRefused, by decide, by decide, by simp, by simp, by simp [hcnt], ?_⟩
      intro m u hpos hlt hrun
      obtain rfl : m = 1 := by omega
      cases hrun₁.symm.trans hrun
      simp [hctl₁]

end Sys2Proof.Machine
end
